-- ==== Sys2Proof/Word.lean ====
section
/-! DEFINITION. The word types of the block (00_scope.md R6, 20_memory.md R36): every register and every
buffer cell is one byte, a command word is 16 bits, a register number is 4 bits. -/

namespace Sys2Proof

/-- A byte (00_scope.md R6): 8 bits, unsigned, the document's `u8`. Every register, every buffer cell and
every buffer index is one. -/
abbrev Byte := BitVec 8

/-- A command word (30_encoding.md R45). -/
abbrev CmdWord := BitVec 16

/-- A register number of the host's register port (10_state.md R18). -/
abbrev RegNum := BitVec 4

end Sys2Proof
end

