-- ==== Sys2Proof/Config.lean ====
section
/-! DEFINITION. The constants of the block (00_scope.md R4) and its one free parameter, the contents of the
two buffers after a reset (70_reset_and_hazards.md R130, 92_eei_decisions.md D14). -/

namespace Sys2Proof

/-- The two byte buffers (10_state.md R19, R20). -/
inductive BufferId where
  /-- `IN`, the operand buffer. -/
  | operand
  /-- `OUT`, the result buffer. -/
  | result
deriving DecidableEq, Repr

namespace Config

/-- `POLY` (00_scope.md R4): the 8 low coefficients of x^8 + x^2 + x + 1. -/
def poly : Byte := 0x07#8

/-- `INIT` (00_scope.md R4): the running register before the first byte. -/
def initCrc : Byte := 0x00#8

/-- `XOROUT` (00_scope.md R4): no final exclusive or. -/
def xorOut : Byte := 0x00#8

/-- `REFIN` (00_scope.md R4): input bits are not reflected (bit 7 is taken first). -/
def refIn : Bool := false

/-- `REFOUT` (00_scope.md R4): the result is not reflected. -/
def refOut : Bool := false

/-- `W` (00_scope.md R4): bits of the checksum, of the running register and of every byte. -/
def width : Nat := 8

/-- `HDR_LEN` (00_scope.md R4): device-id, command-id, reserved byte. -/
def hdrLen : Nat := 3

/-- `PAYLOAD_LEN` (00_scope.md R4): the fixed payload width of an encoded frame. -/
def payloadLen : Nat := 16

/-- `PROT_LEN` (00_scope.md R4): the bytes the checksum of an encoded frame covers. -/
def protLen : Nat := 19

/-- `FRAME_LEN` (00_scope.md R4): the length of an encoded frame. -/
def frameLen : Nat := 20

/-- `MIN_DECODE_LEN` (00_scope.md R4): the shortest sequence `decode` accepts. -/
def minDecodeLen : Nat := 4

/-- `BUF_CELLS` (00_scope.md R4): cells in each of the two buffers. -/
def bufCells : Nat := 256

/-- `MAX_SEQ_LEN` (00_scope.md R4): the longest operand sequence of a buffer operation. -/
def maxSeqLen : Nat := 255

/-- FREE VALUE (log 3; 70_reset_and_hazards.md R130, 93_implementation_defined.md V1 "any value ... Never
assume zero"): the byte that a cell of a buffer holds after the reset numbered `draw`, until it is written.
It has no body: nothing can be proved of it, so a claim holds for every draw. -/
opaque initByte (buffer : BufferId) (draw : Nat) (index : Nat) : Byte

end Config

end Sys2Proof
end

