-- ==== Sys2Proof/Syntax.lean ====
section
/-! DEFINITION. The block's instructions: the five operations of opcode_table.json (30_encoding.md R47). -/

namespace Sys2Proof

/-- The five operations, one constructor per row of opcode_table.json. -/
inductive Instr where
  /-- `CRC.CLR` (40_checksum.md R75): clear the running register. -/
  | crcClr
  /-- `CRC.UPD imm8` (40_checksum.md R76): absorb one byte into the running register. -/
  | crcUpd (imm8 : Byte)
  /-- `CKSUM` (40_checksum.md R77): checksum of the operand sequence. -/
  | cksum
  /-- `ENCODE` (41_frame_codec.md R91): build a frame. -/
  | encode
  /-- `DECODE` (41_frame_codec.md R95): validate and take apart a frame. -/
  | decode
deriving DecidableEq, Repr

end Sys2Proof
end

