-- ==== Sys2Proof/WellFormed.lean ====
section
/-! DEFINITION. Which terms are well formed. An instruction always is: `imm8` is a byte and all 256 values
are legal (30_encoding.md R46). A command word is well formed when it is one of the 260 legal words, written
here as R47 lists them "as words", apart from the decoder's split into fields. -/

namespace Sys2Proof

/-- Every instruction is well formed: no operation has an operand with a forbidden value
(30_encoding.md R46; 40_checksum.md R76 "every `imm8` is legal"). -/
def Instr.wellFormed : Instr → Bool
  | .crcClr => true
  | .crcUpd _ => true
  | .cksum => true
  | .encode => true
  | .decode => true

/-- The legal command words (30_encoding.md R47): "`CRC.CLR` is `0x0100`; `CRC.UPD v` is `0x0200 + v`
(`0x0200` to `0x02FF`); `CKSUM` is `0x0300`; `ENCODE` is `0x0400`; `DECODE` is `0x0500`". -/
def legalWord (w : CmdWord) : Bool :=
  let n := w.toNat
  n == 0x0100 || (0x0200 ≤ n && n ≤ 0x02FF) || n == 0x0300 || n == 0x0400 || n == 0x0500

end Sys2Proof
end

