-- ==== Sys2Proof/Decode.lean ====
section
/-! DEFINITION. The command word: its fields, the decoder, total on all 65,536 words and rejecting by name,
and the encoder (30_encoding.md R45 to R48). -/

namespace Sys2Proof

/-- Why a command word is illegal (30_encoding.md R48). Both kinds have the same effect
(60_exceptions.md R112). -/
inductive Illegal where
  /-- `opc` is `0x00` or `0x06` to `0xFF`. -/
  | reservedOpc
  /-- `opc` is that of a format Z operation and `imm8` is not `0x00`. -/
  | nonzeroImm8
deriving DecidableEq, Repr

/-- Field `opc`, bits 15:8 (30_encoding.md R45). -/
def opcField (w : CmdWord) : Byte := w.extractLsb' 8 8

/-- Field `imm8`, bits 7:0 (30_encoding.md R45). -/
def imm8Field (w : CmdWord) : Byte := w.extractLsb' 0 8

/-- Format Z (30_encoding.md R46): `imm8` must be `0x00`. -/
def formatZ (imm8 : Byte) (i : Instr) : Except Illegal Instr :=
  if imm8 = 0x00#8 then .ok i else .error .nonzeroImm8

/-- The decoder (30_encoding.md R47): "It looks at `opc` first, then, for format Z, at `imm8`." -/
def decode (w : CmdWord) : Except Illegal Instr :=
  let imm8 := imm8Field w
  match (opcField w).toNat with
  | 0x01 => formatZ imm8 .crcClr
  | 0x02 => .ok (.crcUpd imm8)
  | 0x03 => formatZ imm8 .cksum
  | 0x04 => formatZ imm8 .encode
  | 0x05 => formatZ imm8 .decode
  | _ => .error .reservedOpc

/-- A command word from its two fields, `opc` in bits 15:8 and `imm8` in bits 7:0 (30_encoding.md R45). -/
def joinFields (opc imm8 : Byte) : CmdWord := (opc.setWidth 16 <<< 8) ||| imm8.setWidth 16

/-- The encoder (30_encoding.md R47): the one word of an instruction. -/
def encode : Instr → CmdWord
  | .crcClr => joinFields 0x01#8 0x00#8
  | .crcUpd imm8 => joinFields 0x02#8 imm8
  | .cksum => joinFields 0x03#8 0x00#8
  | .encode => joinFields 0x04#8 0x00#8
  | .decode => joinFields 0x05#8 0x00#8

/-- The command word whose low `nbits` bits are `w`'s and whose other bits are 0. A command word is moved
whole on its own port and has no byte order (20_memory.md R34), so nothing is laid out in bytes. -/
def tableWord (nbits w : Nat) : CmdWord := BitVec.ofNat 16 (w % 2 ^ nbits)

/-- The instruction the decoder reads from a row's bits, numbered as opcode_table.json numbers them. -/
def decodeTableWord (nbits w : Nat) : Option Instr :=
  match decode (tableWord nbits w) with
  | .ok i => some i
  | .error _ => none

end Sys2Proof
end

