-- ==== Sys2Proof/Machine/State.lean ====
section
/-! DEFINITION. The architectural state of the block (10_state.md R10), the host moves (10_state.md R24), the
error kinds (60_exceptions.md R110), and the state after reset (70_reset_and_hazards.md R130). -/

namespace Sys2Proof.Machine

/-- The nine named registers (10_state.md R10, R18). -/
inductive RegName where
  /-- `STATUS`, number 0 (R17). -/
  | status
  /-- `CRC`, number 1, the running register (R11). -/
  | crc
  /-- `DEV`, number 2, device-id operand of ENCODE (R12). -/
  | dev
  /-- `CMD`, number 3, command-id operand of ENCODE (R13). -/
  | cmd
  /-- `IN_LEN`, number 4, length of the operand sequence (R14). -/
  | inLen
  /-- `OUT_LEN`, number 5, length of the result sequence (R15). -/
  | outLen
  /-- `RDEV`, number 6, decoded device-id (R16). -/
  | rdev
  /-- `RCMD`, number 7, decoded command-id (R16). -/
  | rcmd
  /-- `RRSV`, number 8, decoded reserved byte (R16). -/
  | rrsv
deriving DecidableEq, Repr

/-- The error kinds of the block (60_exceptions.md R110; 93_implementation_defined.md V3). -/
inductive ErrKind where
  /-- Code 0: every legal operation that does not fail. -/
  | ok
  /-- Code 1: ENCODE with `IN_LEN > 16`. -/
  | payloadTooLong
  /-- Code 2: DECODE with `IN_LEN < 4`. -/
  | frameTooShort
  /-- Code 3: DECODE of a sequence whose last byte is not the checksum of the others. -/
  | checksumMismatch
  /-- Code 4: an illegal command word. -/
  | illegalOp
deriving DecidableEq, Repr

/-- The seven host moves (10_state.md R24): "This is the complete list". -/
inductive HostMove where
  /-- `HRESET`: the reset of 70_reset_and_hazards.md R130. -/
  | hreset
  /-- `HWR(k, v)`: write register number `k`. -/
  | hwr (k : RegNum) (v : Byte)
  /-- `HRD(k)`: read register number `k`. -/
  | hrd (k : RegNum)
  /-- `HWRIN(i, v)`: write cell `IN[i]`. -/
  | hwrin (i : Byte) (v : Byte)
  /-- `HRDIN(i)`: read cell `IN[i]`. -/
  | hrdin (i : Byte)
  /-- `HRDOUT(i)`: read cell `OUT[i]`. -/
  | hrdout (i : Byte)
  /-- `HCMD(w)`: deliver the command word `w`. -/
  | hcmd (w : CmdWord)
deriving DecidableEq, Repr

/-- Why a step could stop with a fault: never. "The block never ends a run of itself and never prevents the
next move: it has no halt, no stuck state, no hang and no wait; every host move is defined in every state"
(70_reset_and_hazards.md R134), so this type has no constructor and no step raises a fault. -/
inductive Fault where
deriving DecidableEq, Repr

/-- Why a step could be refused. -/
inductive Refusal where
  /-- Raised by an arm of `exec` for an instruction without a meaning (safe: nothing is claimed of it). Every
  instruction of the table has its meaning, so no arm raises it. -/
  | notModelled (mnemonic : String)
deriving DecidableEq, Repr

/-- The cells of one buffer that have been written since the last reset, as (index, byte) pairs with strictly
rising indices (log 4). A cell that is not listed has no value of its own here: reading it gives the free
byte of `unlistedByte` (log 3). -/
abbrev Memory := List Host.Cell

/-- The state: the eleven elements of 10_state.md R10, then the model's own three fields (log 1 to 3). -/
structure State where
  /-- `STATUS` (10_state.md R17): `ERR` is bits 2:0, bits 7:3 are hardwired 0. -/
  status : Byte
  /-- `CRC`, the running register (10_state.md R11). -/
  crc : Byte
  /-- `DEV`, the device-id operand of ENCODE (10_state.md R12). -/
  dev : Byte
  /-- `CMD`, the command-id operand of ENCODE (10_state.md R13). -/
  cmd : Byte
  /-- `IN_LEN`, the length of the operand sequence (10_state.md R14). -/
  inLen : Byte
  /-- `OUT_LEN`, the length of the result sequence (10_state.md R15). -/
  outLen : Byte
  /-- `RDEV`, the decoded device-id (10_state.md R16). -/
  rdev : Byte
  /-- `RCMD`, the decoded command-id (10_state.md R16). -/
  rcmd : Byte
  /-- `RRSV`, the decoded reserved byte (10_state.md R16). -/
  rrsv : Byte
  /-- `IN[0..255]`, the operand buffer (10_state.md R19). -/
  inBuf : Memory
  /-- `OUT[0..255]`, the result buffer (10_state.md R20). -/
  outBuf : Memory
  /-- The MODEL's own: how many `HRESET` moves were made, so which draw of initial buffer contents is in
  force (log 3). -/
  draws : Nat
  /-- The MODEL's own: the moves the host has still to make, the next one first (10_state.md R21: "the position
  in the script is state of the host, not of the block"; log 1). -/
  script : List HostMove
  /-- The MODEL's own: the values the host's read moves returned, oldest first
  (70_reset_and_hazards.md R134; log 2). -/
  observed : List Byte
deriving DecidableEq, Repr

/-- The reset state (70_reset_and_hazards.md R130): all nine registers `0x00`, no buffer cell written; "a model
starts there". The model's own fields start at draw 0, no move, nothing observed (DESIGN CHOICE, log 1 to 3). -/
def State.reset : State where
  status := 0x00#8
  crc := 0x00#8
  dev := 0x00#8
  cmd := 0x00#8
  inLen := 0x00#8
  outLen := 0x00#8
  rdev := 0x00#8
  rcmd := 0x00#8
  rrsv := 0x00#8
  inBuf := []
  outBuf := []
  draws := 0
  script := []
  observed := []

end Sys2Proof.Machine
end

