-- ==== Sys2Proof/Machine/Flags.lean ====
section
/-! DEFINITION. The block's only flag, `STATUS.ERR` (10_state.md R17): the code of each error kind
(60_exceptions.md R110), the status word, and the one operation that writes it. -/

namespace Sys2Proof.Machine

/-- The code of an error kind (60_exceptions.md R110). -/
def ErrKind.code : ErrKind → BitVec 3
  | .ok => 0#3
  | .payloadTooLong => 1#3
  | .frameTooShort => 2#3
  | .checksumMismatch => 3#3
  | .illegalOp => 4#3

/-- The status word that reports an error kind: `ERR` in bits 2:0, bits 7:3 zero (10_state.md R17). -/
def statusWord (e : ErrKind) : Byte := e.code.setWidth 8

/-- Field `ERR`, bits 2:0 (10_state.md R17). -/
def errField (status : Byte) : BitVec 3 := status.extractLsb' 0 3

/-- The reserved field, bits 7:3 (10_state.md R17). -/
def reservedField (status : Byte) : BitVec 5 := status.extractLsb' 3 5

/-- What the host reads from `STATUS`: bits 7:3 are "hardwired 0; reads as 0" (10_state.md R17). -/
def readStatus (status : Byte) : Byte := (errField status).setWidth 8

/-- `STATUS.ERR <- code of e` (10_state.md R17: every command word writes `ERR`). -/
def State.setErr (e : ErrKind) (s : State) : State := { s with status := statusWord e }

end Sys2Proof.Machine
end

