-- ==== Sys2Proof/Machine/Ops.lean ====
section
/-! DEFINITION. The named operations over registers and buffers, the register port (10_state.md R18), the error
response (60_exceptions.md R113), the `IllegalOp` response (R112) and the reset (70_reset_and_hazards.md R130).
There is no return from an error to model: "There is no return instruction and nothing to restore"
(60_exceptions.md R115). -/

namespace Sys2Proof.Machine

/-! ### Buffers -/

/-- The byte listed at an index, if one is. -/
def Memory.lookup : Memory → Nat → Option Byte
  | [], _ => none
  | (b, w) :: m, a => if a = b then some w else Memory.lookup m a

/-- List `v` at index `a`, in rising order. -/
def Memory.write : Memory → Nat → Byte → Memory
  | [], a, v => [(a, v)]
  | (b, w) :: m, a, v =>
    if a < b then (a, v) :: (b, w) :: m
    else if a = b then (a, v) :: m
    else (b, w) :: Memory.write m a v

/-- Write a byte sequence at consecutive indices from `a` (20_memory.md R32: index 0 of the sequence first). -/
def Memory.writeSeq : Memory → Nat → List Byte → Memory
  | m, _, [] => m
  | m, a, v :: vs => Memory.writeSeq (Memory.write m a v) (a + 1) vs

/-- The canonical form of a buffer (log 4): indices strictly rising, each below 256 (10_state.md R19, R20). -/
abbrev Memory.wf (m : Memory) : Prop :=
  m.Pairwise (fun x y => x.1 < y.1) ∧ ∀ c ∈ m, c.1 < Config.bufCells

/-- What an unlisted index reads as: the free byte of the draw in force
(70_reset_and_hazards.md R130 "unspecified-stable"; log 3). -/
def unlistedByte (buffer : BufferId) (draw i : Nat) : Byte := Config.initByte buffer draw i

/-- `IN[i]` (00_scope.md R8 `MemRead(IN, i)`). -/
def State.readIn (s : State) (i : Nat) : Byte := (s.inBuf.lookup i).getD (unlistedByte .operand s.draws i)

/-- `OUT[i]` (00_scope.md R8 `MemRead(OUT, i)`). -/
def State.readOut (s : State) (i : Nat) : Byte := (s.outBuf.lookup i).getD (unlistedByte .result s.draws i)

/-- `IN[i] <- v` (10_state.md R24, `HWRIN`). -/
def State.writeIn (i : Nat) (v : Byte) (s : State) : State := { s with inBuf := s.inBuf.write i v }

/-- `OUT[0..len-1] <- vs` (00_scope.md R8 `MemWrite`; every result starts at `OUT[0]`, 20_memory.md R31). -/
def State.writeOut (vs : List Byte) (s : State) : State := { s with outBuf := s.outBuf.writeSeq 0 vs }

/-! ### Registers -/

/-- `CRC <- v`. -/
def State.setCrc (v : Byte) (s : State) : State := { s with crc := v }

/-- `DEV <- v`. -/
def State.setDev (v : Byte) (s : State) : State := { s with dev := v }

/-- `CMD <- v`. -/
def State.setCmd (v : Byte) (s : State) : State := { s with cmd := v }

/-- `IN_LEN <- v`. -/
def State.setInLen (v : Byte) (s : State) : State := { s with inLen := v }

/-- `OUT_LEN <- v`. -/
def State.setOutLen (v : Byte) (s : State) : State := { s with outLen := v }

/-- `RDEV <- d; RCMD <- c; RRSV <- r`, the decoded header (10_state.md R16). -/
def State.setHeader (d c r : Byte) (s : State) : State := { s with rdev := d, rcmd := c, rrsv := r }

/-- Append a value to what the host has observed (70_reset_and_hazards.md R134). -/
def State.observe (v : Byte) (s : State) : State := { s with observed := s.observed ++ [v] }

/-- Leave the host the moves `ms` still to make. -/
def State.setScript (ms : List HostMove) (s : State) : State := { s with script := ms }

/-- The number of a register (10_state.md R18). -/
def RegName.number : RegName → RegNum
  | .status => 0#4
  | .crc => 1#4
  | .dev => 2#4
  | .cmd => 3#4
  | .inLen => 4#4
  | .outLen => 5#4
  | .rdev => 6#4
  | .rcmd => 7#4
  | .rrsv => 8#4

/-- The register of a number; none for the reserved numbers 9 to 15 (10_state.md R18). -/
def regOfNumber (k : RegNum) : Option RegName :=
  match k.toNat with
  | 0 => some .status
  | 1 => some .crc
  | 2 => some .dev
  | 3 => some .cmd
  | 4 => some .inLen
  | 5 => some .outLen
  | 6 => some .rdev
  | 7 => some .rcmd
  | 8 => some .rrsv
  | _ => none

/-- What the host reads from a register. -/
def State.readReg (s : State) : RegName → Byte
  | .status => readStatus s.status
  | .crc => s.crc
  | .dev => s.dev
  | .cmd => s.cmd
  | .inLen => s.inLen
  | .outLen => s.outLen
  | .rdev => s.rdev
  | .rcmd => s.rcmd
  | .rrsv => s.rrsv

/-- What a host write does to a register: only `DEV`, `CMD` and `IN_LEN` are writable; a write to a read-only
register "changes nothing and raises nothing" (10_state.md R18). -/
def State.writeReg (s : State) (r : RegName) (v : Byte) : State :=
  match r with
  | .dev => s.setDev v
  | .cmd => s.setCmd v
  | .inLen => s.setInLen v
  | .status => s
  | .crc => s
  | .outLen => s
  | .rdev => s
  | .rcmd => s
  | .rrsv => s

/-- Read register number `k`; a reserved number reads as `0x00` (10_state.md R18). -/
def State.readPort (s : State) (k : RegNum) : Byte :=
  match regOfNumber k with
  | some r => s.readReg r
  | none => 0x00#8

/-- Write register number `k`; a write to a reserved number is ignored (10_state.md R18). -/
def State.writePort (s : State) (k : RegNum) (v : Byte) : State :=
  match regOfNumber k with
  | some r => s.writeReg r v
  | none => s

/-! ### Errors and reset -/

/-- The error response, the block's "trap entry" (60_exceptions.md R113): `STATUS.ERR <- code`,
`OUT_LEN <- 0`; nothing is saved, no mode changes, control goes nowhere. -/
def raise (e : ErrKind) (s : State) : State := (s.setErr e).setOutLen 0x00#8

/-- An illegal command word performs no operation (60_exceptions.md R112): `STATUS.ERR <- 4` and nothing else. -/
def illegalOp (s : State) : State := s.setErr .illegalOp

/-- The reset `HRESET` (70_reset_and_hazards.md R130): every register `0x00`, every cell of both buffers a
fresh unspecified byte ("each `HRESET` may give different ones"). The host's remaining moves and what it has
observed are the host's and stay (R134: an `HRESET` inside a run does not end it). -/
def resetBlock (s : State) : State :=
  { State.reset with draws := s.draws + 1, script := s.script, observed := s.observed }

end Sys2Proof.Machine
end

