-- ==== Sys2Proof/Machine/Operands.lean ====
section
/-! DEFINITION. Every operand form of the block: the operand sequence in `IN`, parts of it, and the result
sequence in `OUT` (10_state.md R14, R15; 41_frame_codec.md R99). The other operands are the registers `DEV` and
`CMD` and the byte `imm8` of the command word. -/

namespace Sys2Proof.Machine

/-- `zeros(k)` (00_scope.md R7). -/
def zeros (k : Nat) : List Byte := List.replicate k 0x00#8

/-- The cells `IN[lo..lo+len-1]` in index order (00_scope.md R7). -/
def State.inSeq (s : State) (lo len : Nat) : List Byte := (List.range' lo len).map s.readIn

/-- The operand sequence `IN[0..IN_LEN-1]` of CKSUM, ENCODE and DECODE (10_state.md R14). -/
def State.operandSeq (s : State) : List Byte := s.inSeq 0 s.inLen.toNat

/-- The cells `OUT[lo..lo+len-1]` in index order. -/
def State.outSeq (s : State) (lo len : Nat) : List Byte := (List.range' lo len).map s.readOut

/-- The result sequence `OUT[0..OUT_LEN-1]` (10_state.md R15). -/
def State.resultSeq (s : State) : List Byte := s.outSeq 0 s.outLen.toNat

end Sys2Proof.Machine
end

