-- ==== Sys2Proof/Machine/Checksum.lean ====
section
/-! DEFINITION. The checksum engine: its pure functions (40_checksum.md R65 to R67) and the operations CRC.CLR,
CRC.UPD and CKSUM (R75 to R77). -/

namespace Sys2Proof.Machine

/-- One bit step (40_checksum.md R65; 90_conflicts.md C2 for which top bit). -/
def crcBit (r : Byte) (b : Bool) : Byte :=
  let t := r.getLsbD 7 ^^ b
  let s := r <<< 1
  if t then s ^^^ Config.poly else s

/-- One byte step: the bits of `v` from bit 7 to bit 0 (40_checksum.md R66). -/
def crcByte (r v : Byte) : Byte :=
  let r7 := crcBit r (v.getLsbD 7)
  let r6 := crcBit r7 (v.getLsbD 6)
  let r5 := crcBit r6 (v.getLsbD 5)
  let r4 := crcBit r5 (v.getLsbD 4)
  let r3 := crcBit r4 (v.getLsbD 3)
  let r2 := crcBit r3 (v.getLsbD 2)
  let r1 := crcBit r2 (v.getLsbD 1)
  crcBit r1 (v.getLsbD 0)

/-- The checksum of a byte sequence of any length (40_checksum.md R67): a fold from `INIT`, no final exclusive
or, no reflection. -/
def crc8 (s : List Byte) : Byte := s.foldl crcByte Config.initCrc

/-- `CRC.CLR` (40_checksum.md R75). -/
def execCrcClr (s : State) : Host.Outcome State Fault Refusal :=
  .next ((s.setCrc Config.initCrc).setErr .ok)

/-- `CRC.UPD imm8` (40_checksum.md R76). -/
def execCrcUpd (imm8 : Byte) (s : State) : Host.Outcome State Fault Refusal :=
  .next ((s.setCrc (crcByte s.crc imm8)).setErr .ok)

/-- `CKSUM` (40_checksum.md R77): the sum starts from `INIT`, the old `CRC` is not used. -/
def execCksum (s : State) : Host.Outcome State Fault Refusal :=
  .next ((s.setCrc (crc8 s.operandSeq)).setErr .ok)

end Sys2Proof.Machine
end

