-- ==== Sys2Proof/Machine/Codec.lean ====
section
/-! DEFINITION. The frame codec: its pure functions (41_frame_codec.md R85 to R87) and the operations ENCODE (R91)
and DECODE (R95). -/

namespace Sys2Proof.Machine

/-- `pad16(p)` (41_frame_codec.md R85), for a payload of at most 16 bytes: the caller's bytes first, zeros
after. -/
def pad16 (p : List Byte) : List Byte := p ++ zeros (Config.payloadLen - p.length)

/-- The 19 protected bytes of an encoded frame (41_frame_codec.md R86, R91): device-id, command-id, the reserved
byte `0x00`, the padded payload. -/
def protectedBytes (d c : Byte) (p : List Byte) : List Byte := [d, c, 0x00#8] ++ pad16 p

/-- `frame_of(d, c, p)` (41_frame_codec.md R86). -/
def frameOf (d c : Byte) (p : List Byte) : Except ErrKind (List Byte) :=
  if p.length > Config.payloadLen then .error .payloadTooLong
  else .ok (protectedBytes d c p ++ [crc8 (protectedBytes d c p)])

/-- What `parse` returns (41_frame_codec.md R87). -/
structure Parsed where
  /-- Byte 0, whatever its value. -/
  device : Byte
  /-- Byte 1. -/
  command : Byte
  /-- Byte 2, as received. -/
  reserved : Byte
  /-- Bytes 3 to `n - 2`, nothing stripped. -/
  payload : List Byte
deriving DecidableEq, Repr

/-- `s[i]` of a byte sequence (00_scope.md R7); used below only where `i < len(s)`. -/
def byteAt (s : List Byte) (i : Nat) : Byte := s.getD i 0x00#8

/-- `parse(s)` (41_frame_codec.md R87): the length is tested first, the checksum second. -/
def parse (s : List Byte) : Except ErrKind Parsed :=
  let n := s.length
  if n < Config.minDecodeLen then .error .frameTooShort
  else if crc8 (s.take (n - 1)) ≠ byteAt s (n - 1) then .error .checksumMismatch
  else .ok
    { device := byteAt s 0
      command := byteAt s 1
      reserved := byteAt s 2
      payload := (s.take (n - 1)).drop Config.hdrLen }

/-- `ENCODE` (41_frame_codec.md R91). -/
def execEncode (s : State) : Host.Outcome State Fault Refusal :=
  let n := s.inLen.toNat
  if n > Config.payloadLen then .next (raise .payloadTooLong s)
  else
    let h := [s.dev, s.cmd, 0x00#8] ++ s.inSeq 0 n ++ zeros (Config.payloadLen - n)
    let k := crc8 h
    .next ((((s.writeOut (h ++ [k])).setOutLen (BitVec.ofNat 8 Config.frameLen)).setCrc k).setErr .ok)

/-- `DECODE` (41_frame_codec.md R95). Every cell is read from the state the operation began in
(00_scope.md R8); `CRC` is written on match and on mismatch alike. -/
def execDecode (s : State) : Host.Outcome State Fault Refusal :=
  let n := s.inLen.toNat
  if n < Config.minDecodeLen then .next (raise .frameTooShort s)
  else
    let k := crc8 (s.inSeq 0 (n - 1))
    if k ≠ s.readIn (n - 1) then .next (raise .checksumMismatch (s.setCrc k))
    else
      let t := (s.setCrc k).setHeader (s.readIn 0) (s.readIn 1) (s.readIn 2)
      .next (((t.writeOut (s.inSeq Config.hdrLen (n - 4))).setOutLen (BitVec.ofNat 8 (n - 4))).setErr .ok)

end Sys2Proof.Machine
end

