-- ==== Sys2Proof/Machine/Dispatch.lean ====
section
/-! DEFINITION. One arm per operation of opcode_table.json (30_encoding.md R47). -/

namespace Sys2Proof.Machine

-- Performs the operation of a legal command word.
def exec (i : Instr) (s : State) : Host.Outcome State Fault Refusal :=
  match i with
  | .crcClr => Sys2Proof.Machine.execCrcClr s
  | .crcUpd imm8 => Sys2Proof.Machine.execCrcUpd imm8 s
  | .cksum => Sys2Proof.Machine.execCksum s
  | .encode => Sys2Proof.Machine.execEncode s
  | .decode => Sys2Proof.Machine.execDecode s

end Sys2Proof.Machine
end

