-- ==== Sys2Proof/Machine/Moves.lean ====
section
/-! DEFINITION. The host moves (10_state.md R24), a run of them (70_reset_and_hazards.md R134), and which move
comes next. -/

namespace Sys2Proof.Machine

/-- What a command word does: the operation it selects (30_encoding.md R47), or `IllegalOp`
(60_exceptions.md R112); the decoder's verdict comes first (R114). -/
def doCommand (w : CmdWord) (s : State) : Host.Outcome State Fault Refusal :=
  match decode w with
  | .ok i => exec i s
  | .error _ => .next (illegalOp s)

/-- One host move (10_state.md R24). A read returns its value to the host, which observes it, and has no side
effect on the block. -/
def doMove (m : HostMove) (s : State) : Host.Outcome State Fault Refusal :=
  match m with
  | .hreset => .next (resetBlock s)
  | .hwr k v => .next (s.writePort k v)
  | .hrd k => .next (s.observe (s.readPort k))
  | .hwrin i v => .next (s.writeIn i.toNat v)
  | .hrdin i => .next (s.observe (s.readIn i.toNat))
  | .hrdout i => .next (s.observe (s.readOut i.toNat))
  | .hcmd w => doCommand w s

/-- A finite sequence of host moves, "each applied to the state the one before left"
(70_reset_and_hazards.md R134). -/
def runMoves : List HostMove → State → Host.Outcome State Fault Refusal
  | [], s => .next s
  | m :: ms, s =>
    match doMove m s with
    | .next s' => runMoves ms s'
    | .fault r => .fault r
    | .refused r => .refused r

/-- One step: the host makes the first of the moves it has still to make. When it has none left it makes none,
and nothing changes (70_reset_and_hazards.md R134: the block "never ends a run of itself"; log 1). -/
def hostStep (s : State) : Host.Outcome State Fault Refusal :=
  match s.script with
  | [] => .next s
  | m :: ms => doMove m (s.setScript ms)

/-- The state in which the host's next move is to deliver the command word `w`, its other moves after it. -/
def issueNext (w : CmdWord) (s : State) : State := s.setScript (.hcmd w :: s.script)

end Sys2Proof.Machine
end

