-- ==== Sys2Proof/Machine/Step.lean ====
section
/-! DEFINITION. One step of the machine, and the state in which a given command word is the next to run. The block
has no program counter and fetches nothing (10_state.md R21): the next command word is the host's next move. -/

namespace Sys2Proof.Machine

/-- One step: one host move (00_scope.md R5: "each operation is one atomic transition"). -/
def step (s : State) : Host.Outcome State Fault Refusal := hostStep s

/-- `s` with the instruction whose bits are `w` as the command word that the very next step delivers (log 1). -/
def State.withFetchWord (s : State) (nbits w : Nat) : State := issueNext (tableWord nbits w) s

end Sys2Proof.Machine
end

