-- ==== Sys2Proof/Machine/DeviceId.lean ====
section
/-! DEFINITION. The device-id enumeration (30_encoding.md R55): "The block carries the device-id byte and never
looks it up; the table is for the reader of a frame". No operation uses this file. -/

namespace Sys2Proof.Machine

/-- The twelve named device-ids (30_encoding.md R55). -/
inductive DeviceId where
  /-- `GENERAL` -/
  | general
  /-- `MOTORS` -/
  | motors
  /-- `MARKER` -/
  | marker
  /-- `LIGHTS` -/
  | lights
  /-- `COLOR_SENSOR` -/
  | colorSensor
  /-- `SOUND` -/
  | sound
  /-- `BUMPERS` -/
  | bumpers
  /-- `LIGHT_SENSOR` -/
  | lightSensor
  /-- `BATTERY` -/
  | battery
  /-- `ACCELEROMETER` -/
  | accelerometer
  /-- `TOUCH_SENSOR` -/
  | touchSensor
  /-- `CLIFF_SENSOR` -/
  | cliffSensor
deriving DecidableEq, Repr

/-- All named device-ids, in the order of the table. -/
def deviceIds : List DeviceId :=
  [.general, .motors, .marker, .lights, .colorSensor, .sound, .bumpers, .lightSensor, .battery, .accelerometer,
    .touchSensor, .cliffSensor]

/-- The "stable wire value" of a named device-id (30_encoding.md R55). -/
def deviceWire : DeviceId → Byte
  | .general => 0#8
  | .motors => 1#8
  | .marker => 2#8
  | .lights => 3#8
  | .colorSensor => 4#8
  | .sound => 5#8
  | .bumpers => 12#8
  | .lightSensor => 13#8
  | .battery => 14#8
  | .accelerometer => 16#8
  | .touchSensor => 17#8
  | .cliffSensor => 20#8

/-- The name of a device-id byte; none for the 244 unnamed values, which are legal on the wire
(30_encoding.md R54 (a), R55). -/
def deviceOfWire (b : Byte) : Option DeviceId := deviceIds.find? (fun d => deviceWire d == b)

end Sys2Proof.Machine
end

