-- ==== Sys2Proof/Machine/Script.lean ====
section
/-! DEFINITION. Host scripts: the host moves each line and each pseudo-instruction stands for, and the reading of a
line's text (30_encoding.md R60, R61). The block itself never sees a script (10_state.md R21). -/

namespace Sys2Proof.Machine

/-! ### Pseudo-instructions (30_encoding.md R61) -/

/-- `LOAD`, but for the bound on its length: the bytes from `IN[i]` on. -/
def loadCells : Nat → List Byte → List HostMove
  | _, [] => []
  | i, b :: bs => .hwrin (BitVec.ofNat 8 i) b :: loadCells (i + 1) bs

/-- `LOAD [b0, ..., b(n-1)]`, `n` 0 to 255; a longer one cannot be written (R61; 93_implementation_defined.md V8:
`refuse` at the boundary of the script notation). -/
def load (bs : List Byte) : Option (List HostMove) :=
  if bs.length ≤ Config.maxSeqLen then
    some (loadCells 0 bs ++ [.hwr RegName.inLen.number (BitVec.ofNat 8 bs.length)])
  else none

/-- `CHECKSUM [b0, ...]`: the document's `checksum(bytes)`. -/
def checksumMoves (bs : List Byte) : Option (List HostMove) :=
  (load bs).map fun l => l ++ [.hcmd (encode .cksum), .hrd RegName.crc.number]

/-- `ENC d, c, [p0, ...]`: the document's `encode(device, command, payload)`. -/
def encMoves (d c : Byte) (p : List Byte) : Option (List HostMove) :=
  (load p).map fun l =>
    [.hwr RegName.dev.number d, .hwr RegName.cmd.number c] ++ l ++
      [.hcmd (encode .encode), .hrd RegName.status.number]

/-- `DEC [b0, ...]`: the document's `decode(frame)`. -/
def decMoves (bs : List Byte) : Option (List HostMove) :=
  (load bs).map fun l => l ++ [.hcmd (encode .decode), .hrd RegName.status.number]

/-- `STREAM [b0, ...]`, any length: `checksum(bytes)` without the buffer. -/
def streamMoves (bs : List Byte) : List HostMove :=
  .hcmd (encode .crcClr) :: bs.map (fun b => .hcmd (encode (.crcUpd b))) ++ [.hrd RegName.crc.number]

/-- The cells of `LOOPBACK`: `RDOUT i -> v`; `WRIN i, v`. The written value is the one the read returns; no move
here changes `OUT`, so it is that of the state `LOOPBACK` begins in. -/
def loopbackCells (s : State) (i : Nat) : List HostMove :=
  [.hrdout (BitVec.ofNat 8 i), .hwrin (BitVec.ofNat 8 i) (s.readOut i)]

/-- `LOOPBACK`: copies the result sequence into the operand sequence. -/
def loopbackMoves (s : State) : List HostMove :=
  (List.range s.outLen.toNat).flatMap (loopbackCells s) ++ [.hwr RegName.inLen.number s.outLen]

/-! ### Lines (30_encoding.md R60) -/

/-- One line of a script. -/
inductive Line where
  /-- An empty line or only a comment. -/
  | blank
  /-- A line that is one host move; a read may carry the value it is expected to return. -/
  | move (m : HostMove) (expected : Option Byte)
  /-- `LOAD [...]` -/
  | load (bs : List Byte)
  /-- `CHECKSUM [...]` -/
  | checksum (bs : List Byte)
  /-- `ENC d, c, [...]` -/
  | enc (d c : Byte) (p : List Byte)
  /-- `DEC [...]` -/
  | dec (bs : List Byte)
  /-- `STREAM [...]` -/
  | stream (bs : List Byte)
  /-- `LOOPBACK` -/
  | loopback
deriving DecidableEq, Repr

/-- The host moves a line stands for, made in a state (30_encoding.md R60, R61); none for a `LOAD` that cannot be
written. -/
def lineMoves (s : State) : Line → Option (List HostMove)
  | .blank => some []
  | .move m _ => some [m]
  | .load bs => load bs
  | .checksum bs => checksumMoves bs
  | .enc d c p => encMoves d c p
  | .dec bs => decMoves bs
  | .stream bs => some (streamMoves bs)
  | .loopback => some (loopbackMoves s)

/-! ### The text of a line (30_encoding.md R60; what the table leaves open is log 10) -/

/-- A word, a comma or a bracket of a line. -/
abbrev Token := List Char

/-- The token gathered so far, if there is one. -/
def flushToken (acc : Token) : List Token := if acc.isEmpty then [] else [acc.reverse]

/-- Split a line at blanks, at commas and at brackets; a comment runs from `;` to the end of the line. -/
def tokens : List Char → Token → List Token
  | [], acc => flushToken acc
  | c :: cs, acc =>
    if c = ';' then flushToken acc
    else if c = ' ' ∨ c = '\t' then flushToken acc ++ tokens cs []
    else if c = ',' ∨ c = '[' ∨ c = ']' then flushToken acc ++ [c] :: tokens cs []
    else tokens cs (c :: acc)

/-- A digit's value in a base of at most 16. -/
def digitValue (base : Nat) (c : Char) : Option Nat :=
  let n := c.toNat
  let d := if 48 ≤ n ∧ n ≤ 57 then n - 48 else if 65 ≤ n ∧ n ≤ 70 then n - 55
    else if 97 ≤ n ∧ n ≤ 102 then n - 87 else 16
  if d < base then some d else none

/-- The number that digits write, most significant first, after the digits worth `acc`. -/
def digitsValue (base : Nat) : Token → Nat → Option Nat
  | [], acc => some acc
  | c :: cs, acc =>
    match digitValue base c with
    | some d => digitsValue base cs (acc * base + d)
    | none => none

/-- A number, "decimal or `0x` hexadecimal" (30_encoding.md R60). -/
def numberOf : Token → Option Nat
  | [] => none
  | '0' :: 'x' :: d :: ds => digitsValue 16 (d :: ds) 0
  | d :: ds => digitsValue 10 (d :: ds) 0

/-- `<byte>` or `<index>`: 0 to 255. -/
def byteOf (t : Token) : Option Byte :=
  match numberOf t with
  | some n => if n < 256 then some (BitVec.ofNat 8 n) else none
  | none => none

/-- `<16-bit value>`. -/
def wordOf (t : Token) : Option CmdWord :=
  match numberOf t with
  | some n => if n < 65536 then some (BitVec.ofNat 16 n) else none
  | none => none

/-- The name of a register in a script (10_state.md R18). -/
def regText : RegName → Token
  | .status => "STATUS".toList
  | .crc => "CRC".toList
  | .dev => "DEV".toList
  | .cmd => "CMD".toList
  | .inLen => "IN_LEN".toList
  | .outLen => "OUT_LEN".toList
  | .rdev => "RDEV".toList
  | .rcmd => "RCMD".toList
  | .rrsv => "RRSV".toList

/-- The nine registers. -/
def regNames : List RegName := [.status, .crc, .dev, .cmd, .inLen, .outLen, .rdev, .rcmd, .rrsv]

/-- "`<reg>` any register name" (30_encoding.md R60). -/
def regOf (t : Token) : Option RegName := regNames.find? (fun r => regText r == t)

/-- "`<reg>` one of `DEV`, `CMD`, `IN_LEN`" (30_encoding.md R60). -/
def writableRegOf (t : Token) : Option RegName :=
  [RegName.dev, .cmd, .inLen].find? (fun r => regText r == t)

/-- The bytes of a bracketed list after its `[`, up to and with its `]`, when there is at least one. -/
def listItems : List Token → Option (List Byte)
  | [b, close] => if close = [']'] then (byteOf b).map ([·]) else none
  | b :: comma :: rest =>
    if comma = [','] then
      match byteOf b, listItems rest with
      | some v, some vs => some (v :: vs)
      | _, _ => none
    else none
  | _ => none

/-- A bracketed list `[b0, b1, ..., b(n-1)]`, which may be empty. -/
def listOf : List Token → Option (List Byte)
  | [['['], [']']] => some []
  | ['['] :: rest => listItems rest
  | _ => none

/-- What may follow a read: nothing, or `-> <value>`. -/
def expectedOf : List Token → Option (Option Byte)
  | [] => some none
  | [arrow, v] => if arrow = ['-', '>'] then (byteOf v).map some else none
  | _ => none

/-- A read line: the move, and the value it is expected to return. -/
def readLine (m : Option HostMove) (rest : List Token) : Option Line :=
  match m, expectedOf rest with
  | some m, some e => some (.move m e)
  | _, _ => none

/-- The line whose first token is `head` and whose others are `rest`. -/
def lineOf (head : Token) (rest : List Token) : Option Line :=
  if head = "RESET".toList then if rest.isEmpty then some (.move .hreset none) else none
  else if head = "CRC.CLR".toList then
    if rest.isEmpty then some (.move (.hcmd (encode .crcClr)) none) else none
  else if head = "CKSUM".toList then
    if rest.isEmpty then some (.move (.hcmd (encode .cksum)) none) else none
  else if head = "ENCODE".toList then
    if rest.isEmpty then some (.move (.hcmd (encode .encode)) none) else none
  else if head = "DECODE".toList then
    if rest.isEmpty then some (.move (.hcmd (encode .decode)) none) else none
  else if head = "LOOPBACK".toList then if rest.isEmpty then some .loopback else none
  else if head = "CRC.UPD".toList then
    match rest with
    | [v] => (byteOf v).map fun b => .move (.hcmd (encode (.crcUpd b))) none
    | _ => none
  else if head = ".word".toList then
    match rest with
    | [v] => (wordOf v).map fun w => .move (.hcmd w) none
    | _ => none
  else if head = "WR".toList then
    match rest with
    | [r, [','], v] =>
      match writableRegOf r, byteOf v with
      | some r, some b => some (.move (.hwr r.number b) none)
      | _, _ => none
    | _ => none
  else if head = "WRIN".toList then
    match rest with
    | [i, [','], v] =>
      match byteOf i, byteOf v with
      | some i, some b => some (.move (.hwrin i b) none)
      | _, _ => none
    | _ => none
  else if head = "RD".toList then
    match rest with
    | r :: more => readLine ((regOf r).map fun r => .hrd r.number) more
    | [] => none
  else if head = "RDIN".toList then
    match rest with
    | i :: more => readLine ((byteOf i).map fun i => .hrdin i) more
    | [] => none
  else if head = "RDOUT".toList then
    match rest with
    | i :: more => readLine ((byteOf i).map fun i => .hrdout i) more
    | [] => none
  else if head = "LOAD".toList then (listOf rest).map .load
  else if head = "CHECKSUM".toList then (listOf rest).map .checksum
  else if head = "DEC".toList then (listOf rest).map .dec
  else if head = "STREAM".toList then (listOf rest).map .stream
  else if head = "ENC".toList then
    match rest with
    | d :: [','] :: c :: [','] :: more =>
      match byteOf d, byteOf c, listOf more with
      | some d, some c, some p => some (.enc d c p)
      | _, _, _ => none
    | _ => none
  else none

/-- Read one line of a script (30_encoding.md R60, R61); none when it is no line of the syntax. -/
def parseLine (text : List Char) : Option Line :=
  match tokens text [] with
  | [] => some .blank
  | head :: rest => lineOf head rest

end Sys2Proof.Machine
end

