-- ==== Sys2Proof/Safety.lean ====
section
/-! DEFINITION. What claims call a good state and a clean run. The invariant is read from 10_state.md R15, R17, R20,
60_exceptions.md R110 and R113; a clean run from 93_implementation_defined.md V2. -/

namespace Sys2Proof.Machine

/-- `STATUS` as the spec lets it be (10_state.md R17): bits 7:3 are 0 and `ERR` is 0 to 4. -/
abbrev statusLegal (status : Byte) : Prop := reservedField status = 0#5 ∧ (errField status).toNat ≤ 4

/-- `ERR` names an error that leaves no result: codes 1, 2 and 3 (60_exceptions.md R110, R113). -/
abbrev frameError (status : Byte) : Prop := 1 ≤ (errField status).toNat ∧ (errField status).toNat ≤ 3

/-- The invariant of the machine: both buffers in canonical form, a legal `STATUS`, `OUT_LEN` at most 251, no
result after a frame error, and every cell of the result sequence one that an operation wrote, never a leftover
of reset. -/
abbrev State.Inv (s : State) : Prop :=
  s.inBuf.wf ∧ s.outBuf.wf ∧ statusLegal s.status ∧ s.outLen.toNat ≤ 251 ∧
    (frameError s.status → s.outLen = 0x00#8) ∧
    ∀ i < s.outLen.toNat, (s.outBuf.lookup i).isSome = true

/-- The last command word raised no error (10_state.md R15: "success is `STATUS.ERR = 0`"). -/
abbrev State.succeeded (s : State) : Prop := errField s.status = 0#3

/-- Making the moves `ms` from `s` ends in a next state and leaves `ERR = 0` after every one of them: "the script
ran without error", where an `IllegalOp` counts as an error like the other three
(93_implementation_defined.md V2). -/
def cleanRun : List HostMove → State → Prop
  | [], _ => True
  | m :: ms, s => ∃ t, doMove m s = .next t ∧ t.succeeded ∧ cleanRun ms t

end Sys2Proof.Machine
end

