-- ==== Sys2Proof/Certificates/Slice0/Obligations.lean ====
section
/-! DEFINITION. The statements for the provers, in the order of the spec's files. Each docstring names the rule it
formalises, or says that the statement is the spec's own inference or the model's choice. -/

open Sys2Proof Sys2Proof.Machine

namespace Sys2Proof.Claims

/-- The host's side of the state, the model's own three fields (log 1 to 3), is untouched. -/
def keepsHost (s t : State) : Prop := t.draws = s.draws ∧ t.script = s.script ∧ t.observed = s.observed

/-- `DEV`, `CMD`, `IN_LEN` and every cell of `IN` are untouched. -/
def keepsOperands (s t : State) : Prop :=
  t.dev = s.dev ∧ t.cmd = s.cmd ∧ t.inLen = s.inLen ∧ ∀ i, t.readIn i = s.readIn i

/-- `RDEV`, `RCMD` and `RRSV` are untouched. -/
def keepsHeader (s t : State) : Prop := t.rdev = s.rdev ∧ t.rcmd = s.rcmd ∧ t.rrsv = s.rrsv

/-- All nine registers agree. -/
def sameRegisters (s t : State) : Prop :=
  t.status = s.status ∧ t.crc = s.crc ∧ t.dev = s.dev ∧ t.cmd = s.cmd ∧ t.inLen = s.inLen ∧
    t.outLen = s.outLen ∧ t.rdev = s.rdev ∧ t.rcmd = s.rcmd ∧ t.rrsv = s.rrsv

/-- All nine registers are `0x00`. -/
def registersZero (t : State) : Prop :=
  t.status = 0x00#8 ∧ t.crc = 0x00#8 ∧ t.dev = 0x00#8 ∧ t.cmd = 0x00#8 ∧ t.inLen = 0x00#8 ∧
    t.outLen = 0x00#8 ∧ t.rdev = 0x00#8 ∧ t.rcmd = 0x00#8 ∧ t.rrsv = 0x00#8

/-- The difference byte `j` of a difference given by stream positions: stream position `p` is bit `7 - (p mod 8)`
of byte `p div 8` (00_scope.md R7). -/
def diffByte (P : Nat → Bool) (j : Nat) : Byte :=
  (List.range 8).foldl (fun x k => if P (8 * j + k) then x ^^^ (0x80#8 >>> k) else x) 0x00#8

/-- The sequence that differs from `f` in exactly the stream positions that `P` marks. -/
def differAt (f : List Byte) (P : Nat → Bool) : List Byte := f.mapIdx fun j b => b ^^^ diffByte P j

/-- The bit of a sequence at a stream position (00_scope.md R7). -/
def streamBit (s : List Byte) (p : Nat) : Bool := (byteAt s (p / 8)).getLsbD (7 - p % 8)

/-- One step of the register that "lets the register grow past 8 bits while it works through one byte"
(40_checksum.md R66). -/
def growingBit (r : Nat) (b : Bool) : Nat :=
  if (r / 128 % 2 == 1) ^^ b then (2 * r) ^^^ 7 else 2 * r

/-- The moves that deliver the command words of `CRC.CLR` and then of one `CRC.UPD` per byte. -/
def clearThenAbsorb (bs : List Byte) : List HostMove :=
  .hcmd 0x0100#16 :: bs.map fun b => .hcmd (BitVec.ofNat 16 (0x0200 + b.toNat))

end Sys2Proof.Claims

open Sys2Proof.Claims

/-! ### 10_state.md: registers, port, host moves -/

/-- 10_state.md R18: which register each number names, for a read and for a write, in every state. -/
def Obligations.RegisterNumbersReadAndWrite : Prop :=
  ∀ (s : State) (v : Byte),
    (s.readPort 0#4 = s.status &&& 0x07#8 ∧ s.readPort 1#4 = s.crc ∧ s.readPort 2#4 = s.dev ∧
      s.readPort 3#4 = s.cmd ∧ s.readPort 4#4 = s.inLen ∧ s.readPort 5#4 = s.outLen ∧
      s.readPort 6#4 = s.rdev ∧ s.readPort 7#4 = s.rcmd ∧ s.readPort 8#4 = s.rrsv) ∧
    (∀ k : RegNum, 9 ≤ k.toNat → s.readPort k = 0x00#8) ∧
    s.writePort 2#4 v = { s with dev := v } ∧ s.writePort 3#4 v = { s with cmd := v } ∧
    s.writePort 4#4 v = { s with inLen := v } ∧
    (∀ k : RegNum, k ≠ 2#4 → k ≠ 3#4 → k ≠ 4#4 → s.writePort k v = s)

/-- The table of 10_state.md section 5: the effect and the returned value of each of the seven host moves, in every
state. That the moves still to make stand in `script`, which HRESET keeps, is the model's choice (log 1); that a
returned value is appended to `observed`, which HRESET keeps, is the model's choice (log 2). -/
def Obligations.HostMovesOfTheTable : Prop :=
  ∀ s : State,
    (∃ t, doMove .hreset s = .next t ∧ registersZero t ∧ t.script = s.script ∧ t.observed = s.observed) ∧
    (∀ v, doMove (.hwr 2#4 v) s = .next { s with dev := v }) ∧
    (∀ v, doMove (.hwr 3#4 v) s = .next { s with cmd := v }) ∧
    (∀ v, doMove (.hwr 4#4 v) s = .next { s with inLen := v }) ∧
    (∀ k v, k ≠ 2#4 → k ≠ 3#4 → k ≠ 4#4 → doMove (.hwr k v) s = .next s) ∧
    (∀ k, doMove (.hrd k) s = .next { s with observed := s.observed ++ [s.readPort k] }) ∧
    (∀ i v, ∃ t, doMove (.hwrin i v) s = .next t ∧ t = { s with inBuf := t.inBuf } ∧ t.readIn i.toNat = v ∧
      ∀ j, j ≠ i.toNat → t.readIn j = s.readIn j) ∧
    (∀ i, doMove (.hrdin i) s = .next { s with observed := s.observed ++ [s.readIn i.toNat] }) ∧
    (∀ i, doMove (.hrdout i) s = .next { s with observed := s.observed ++ [s.readOut i.toNat] }) ∧
    (∀ w i, decode w = .ok i → doMove (.hcmd w) s = exec i s) ∧
    (∀ w, legalWord w = false → doMove (.hcmd w) s = .next { s with status := 0x04#8 })

/-- The "written by" column of the inventory of 10_state.md section 1, for every move but `HRESET`: an element
that changes was changed by one of its writers. -/
def Obligations.OnlyTheListedWritersChangeState : Prop :=
  ∀ (m : HostMove) (s t : State), doMove m s = .next t → m ≠ .hreset →
    (t.crc ≠ s.crc → ∃ w i, m = .hcmd w ∧ decode w = .ok i) ∧
    (t.dev ≠ s.dev → ∃ v, m = .hwr 2#4 v) ∧
    (t.cmd ≠ s.cmd → ∃ v, m = .hwr 3#4 v) ∧
    (t.inLen ≠ s.inLen → ∃ v, m = .hwr 4#4 v) ∧
    (∀ i, t.readIn i ≠ s.readIn i → ∃ j v, m = .hwrin j v ∧ j.toNat = i) ∧
    (∀ i, t.readOut i ≠ s.readOut i → m = .hcmd 0x0400#16 ∨ m = .hcmd 0x0500#16) ∧
    (t.outLen ≠ s.outLen → m = .hcmd 0x0400#16 ∨ m = .hcmd 0x0500#16) ∧
    (¬ keepsHeader s t → m = .hcmd 0x0500#16) ∧
    (t.status ≠ s.status → ∃ w, m = .hcmd w)

/-- 10_state.md section 3 (`IN`): "the contents of cells at `IN_LEN` and above never affect any result". Two
states that agree in the registers, in `OUT` and in the cells of `IN` below `IN_LEN` give the same registers and
the same `OUT` after any operation. -/
def Obligations.CellsAboveInLenNeverMatter : Prop :=
  ∀ (i : Instr) (s s' t : State), sameRegisters s s' → (∀ j < s.inLen.toNat, s'.readIn j = s.readIn j) →
    (∀ j, s'.readOut j = s.readOut j) → exec i s = .next t →
    ∃ t', exec i s' = .next t' ∧ sameRegisters t t' ∧ ∀ j, t'.readOut j = t.readOut j

/-- 10_state.md sections 2 and 3: no command word, legal or not, changes `DEV`, `CMD`, `IN_LEN`, a cell of `IN`, or
the host's side of the state (the model's own fields, log 1 to 3). -/
def Obligations.CommandWordsKeepOperands : Prop :=
  ∀ (w : CmdWord) (s t : State), doMove (.hcmd w) s = .next t → keepsOperands s t ∧ keepsHost s t

/-- The frame of 10_state.md sections 2 and 3 for the three operations of the checksum engine: a next state of
CRC.CLR, CRC.UPD or CKSUM differs from the state before in `CRC` and `STATUS` at most, and every byte of both buffers
reads as before. -/
def Obligations.ChecksumOperationsFrame : Prop :=
  ∀ (i : Instr) (s t : State), i = .crcClr ∨ (∃ v, i = .crcUpd v) ∨ i = .cksum → exec i s = .next t →
    t = { s with crc := t.crc, status := t.status } ∧ (∀ a, t.readIn a = s.readIn a) ∧
      ∀ a, t.readOut a = s.readOut a

/-! ### 30_encoding.md: the command word -/

/-- 30_encoding.md R47: the five operations as words, every other word illegal, 260 legal words in all. -/
def Obligations.LegalWordsSelectTheirOperation : Prop :=
  decode 0x0100#16 = .ok .crcClr ∧ (∀ v : Byte, decode (BitVec.ofNat 16 (0x0200 + v.toNat)) = .ok (.crcUpd v)) ∧
    decode 0x0300#16 = .ok .cksum ∧ decode 0x0400#16 = .ok .encode ∧ decode 0x0500#16 = .ok .decode ∧
    (∀ w, legalWord w = true ↔ ∃ i, decode w = .ok i) ∧
    (List.range 65536).countP (fun n => legalWord (BitVec.ofNat 16 n)) = 260

/-- 30_encoding.md R48: which words are illegal, that they all have the effect of `IllegalOp`, and that decoding and
encoding agree, for every operand and every legal word. -/
def Obligations.DecodeEncodeAgree : Prop :=
  (∀ i : Instr, decode (encode i) = .ok i) ∧
    (∀ (w : CmdWord) (i : Instr), decode w = .ok i → encode i = w) ∧
    (∀ w : CmdWord, (∃ e, decode w = .error e) ↔
      w.toNat / 256 = 0x00 ∨ 0x06 ≤ w.toNat / 256 ∨
        ((w.toNat / 256 = 0x01 ∨ w.toNat / 256 = 0x03 ∨ w.toNat / 256 = 0x04 ∨ w.toNat / 256 = 0x05) ∧
          w.toNat % 256 ≠ 0x00)) ∧
    (∀ (w : CmdWord) (e : Illegal) (s : State), decode w = .error e →
      doMove (.hcmd w) s = .next { s with status := 0x04#8 })

/-- A few words of 30_encoding.md section 1, bit by bit: one of each operation, and one illegal word of each kind that
decodes to no instruction. A sanity statement. -/
def Obligations.WrittenOutWordsDecode : Prop :=
  decode 0b0000000100000000#16 = .ok .crcClr ∧ decode 0b0000001000110001#16 = .ok (.crcUpd 0x31#8) ∧
    decode 0b0000001100000000#16 = .ok .cksum ∧ decode 0b0000010000000000#16 = .ok .encode ∧
    decode 0b0000010100000000#16 = .ok .decode ∧ (∀ i, decode 0b0000010000000001#16 ≠ .ok i) ∧
    ∀ i, decode 0b1000000100000000#16 ≠ .ok i

/-- 30_encoding.md R55: the value of each of the twelve named device-ids; the 244 unnamed bytes; and that every byte,
named or not, is legal in both directions: ENCODE carries any `DEV` into the frame, and DECODE of a frame with any
first byte and the right checksum succeeds and returns it. -/
def Obligations.DeviceIdTable : Prop :=
  (deviceWire .general = 0#8 ∧ deviceWire .motors = 1#8 ∧ deviceWire .marker = 2#8 ∧ deviceWire .lights = 3#8 ∧
      deviceWire .colorSensor = 4#8 ∧ deviceWire .sound = 5#8 ∧ deviceWire .bumpers = 12#8 ∧
      deviceWire .lightSensor = 13#8 ∧ deviceWire .battery = 14#8 ∧ deviceWire .accelerometer = 16#8 ∧
      deviceWire .touchSensor = 17#8 ∧ deviceWire .cliffSensor = 20#8) ∧
    (∀ d : DeviceId, deviceOfWire (deviceWire d) = some d) ∧
    (∀ b : Byte, deviceOfWire b = none ↔
      (6 ≤ b.toNat ∧ b.toNat ≤ 11) ∨ b.toNat = 15 ∨ b.toNat = 18 ∨ b.toNat = 19 ∨ 21 ≤ b.toNat) ∧
    (∀ (b : Byte) (s : State), s.inLen.toNat ≤ 16 →
      ∃ t, exec .encode { s with dev := b } = .next t ∧ t.status = 0x00#8 ∧ t.readOut 0 = b) ∧
    (∀ (b : Byte) (s : State), s.readIn 0 = b → 4 ≤ s.inLen.toNat →
      crc8 ((List.range (s.inLen.toNat - 1)).map s.readIn) = s.readIn (s.inLen.toNat - 1) →
      ∃ t, exec .decode s = .next t ∧ t.status = 0x00#8 ∧ t.rdev = b)

/-! ### 40_checksum.md: the functions and their consequences -/

/-- 40_checksum.md R65, in numbers: the top bit against the input bit decides, before the shift, whether `0x07` is
exclusive-ored into the shifted register; with the rule's corner cases. -/
def Obligations.CrcBitStep : Prop :=
  (∀ (r : Byte) (b : Bool), (crcBit r b).toNat =
      if (decide (128 ≤ r.toNat)) ^^ b then (2 * r.toNat % 256) ^^^ 7 else 2 * r.toNat % 256) ∧
    crcBit 0x00#8 false = 0x00#8 ∧ crcBit 0x00#8 true = 0x07#8 ∧ crcBit 0x80#8 false = 0x07#8 ∧
    crcBit 0x80#8 true = 0x00#8 ∧ crcBit 0xFF#8 false = 0xF9#8 ∧ crcBit 0xFF#8 true = 0xFE#8

/-- 40_checksum.md R66: the eight bits from bit 7 to bit 0; the register that may grow inside a byte and is masked
once at its end gives the same result; with the rule's worked examples. -/
def Obligations.CrcByteTakesBitsMsbFirst : Prop :=
  (∀ r v : Byte, crcByte r v = [7, 6, 5, 4, 3, 2, 1, 0].foldl (fun x i => crcBit x (v.getLsbD i)) r) ∧
    (∀ r v : Byte, (crcByte r v).toNat =
      [7, 6, 5, 4, 3, 2, 1, 0].foldl (fun x i => growingBit x (v.getLsbD i)) r.toNat % 256) ∧
    [0x07#8, 0x0E#8, 0x1C#8, 0x38#8, 0x70#8, 0xE0#8, 0xC7#8, 0x89#8] =
      (List.range 8).map (fun k =>
        ([7, 6, 5, 4, 3, 2, 1, 0].take (k + 1)).foldl (fun x i => crcBit x ((0x80#8).getLsbD i)) 0x00#8) ∧
    crcByte 0x00#8 0x80#8 = 0x89#8 ∧ crcByte 0x00#8 0x01#8 = 0x07#8 ∧ crcByte 0xFF#8 0xFF#8 = 0x00#8 ∧
    crcByte 0xFF#8 0x00#8 = 0xF3#8

/-- 40_checksum.md R67 and R68: the fold from 0 in index order, no final exclusive or; the empty sequence; the worked
example with its running values. -/
def Obligations.ChecksumIsTheFold : Prop :=
  crc8 [] = 0x00#8 ∧ (∀ (s : List Byte) (v : Byte), crc8 (s ++ [v]) = crcByte (crc8 s) v) ∧
    (List.range 9).map (fun k => crc8
      ([0x31#8, 0x32#8, 0x33#8, 0x34#8, 0x35#8, 0x36#8, 0x37#8, 0x38#8, 0x39#8].take (k + 1))) =
      [0x97#8, 0x72#8, 0xC0#8, 0xC2#8, 0xCB#8, 0xFD#8, 0x78#8, 0xC7#8, 0xF4#8]

/-- The spec's own inference (40_checksum.md section 2, "Byte-wise form"): the input byte may be exclusive-ored into
the register first, and the register then shifted eight times. -/
def Obligations.ByteStepIsTableOfXor : Prop :=
  ∀ r v : Byte, crcByte r v = Nat.iterate (fun x => crcBit x false) 8 (r ^^^ v) ∧
    crcByte r v = crcByte 0x00#8 (r ^^^ v)

/-- The spec's own inference (40_checksum.md section 2, "leading zeros are invisible"), and that trailing zeros are
not. -/
def Obligations.LeadingZerosAreInvisible : Prop :=
  (∀ (k : Nat) (s : List Byte), crc8 (zeros k ++ s) = crc8 s) ∧ (∀ k : Nat, crc8 (zeros k) = 0x00#8) ∧
    crc8 [0x01#8] = 0x07#8 ∧ crc8 [0x01#8, 0x00#8] = 0x15#8

/-- The spec's own inference (40_checksum.md section 2, "residue"): a sequence followed by its own checksum sums to
zero, and by nothing else. -/
def Obligations.ChecksumResidueIsZero : Prop :=
  ∀ (s : List Byte) (v : Byte), crc8 (s ++ [v]) = 0x00#8 ↔ v = crc8 s

/-- The spec's own inference (40_checksum.md section 2, "linearity"). -/
def Obligations.ChecksumIsLinear : Prop :=
  ∀ a b : List Byte, a.length = b.length → crc8 (List.zipWith (· ^^^ ·) a b) = crc8 a ^^^ crc8 b

/-- General knowledge that the spec quotes (40_checksum.md section 2, "Polynomial reading"): over the field of two
elements, `S(x) * x^8` is a multiple of `x^8 + x^2 + x + 1` plus the polynomial of degree below 8 that `crc8(s)`
writes, so `crc8(s)` is the remainder. -/
def Obligations.ChecksumIsThePolynomialRemainder : Prop :=
  ∀ s : List Byte, ∃ q : Polynomial (ZMod 2),
    (∑ p ∈ Finset.range (8 * s.length),
        if streamBit s p then Polynomial.X ^ (8 * s.length - 1 - p) else 0) * Polynomial.X ^ 8 =
      q * (Polynomial.X ^ 8 + Polynomial.X ^ 2 + Polynomial.X + 1) +
        ∑ i ∈ Finset.range 8, if (crc8 s).getLsbD i then Polynomial.X ^ i else 0

/-- The spec's own inference (40_checksum.md section 2, "What the checksum detects", (b)): "any corruption of one
single byte, whatever the new value, is always caught". -/
def Obligations.OneByteCorruptionIsCaught : Prop :=
  ∀ (f : List Byte) (r : Parsed) (j : Nat) (v : Byte), parse f = .ok r → j < f.length → v ≠ byteAt f j →
    parse (f.set j v) = .error .checksumMismatch

/-- The spec's own inference (40_checksum.md section 2, "What the checksum detects", (a) and (b)): a difference
confined to 8 consecutive stream positions, one bit among them, never passes. -/
def Obligations.ShortBurstIsCaught : Prop :=
  ∀ (f : List Byte) (r : Parsed) (P : Nat → Bool) (p : Nat), parse f = .ok r →
    (∀ q, P q = true → p ≤ q ∧ q < p + 8) → (∃ q, P q = true ∧ q < 8 * f.length) →
    parse (differAt f P) = .error .checksumMismatch

/-- The spec's own inference (40_checksum.md section 2, "What the checksum detects", (c)): a difference in an odd
number of bits never passes. -/
def Obligations.OddDifferenceIsCaught : Prop :=
  ∀ (f : List Byte) (r : Parsed) (P : Nat → Bool), parse f = .ok r →
    (List.range (8 * f.length)).countP P % 2 = 1 → parse (differAt f P) = .error .checksumMismatch

/-- The spec's own inference (40_checksum.md section 2, "What the checksum detects", (d) and (e)): a difference in
exactly two bits passes if and only if the two stream positions are a multiple of 127 apart; one at positions `p`,
`p+6`, `p+7`, `p+8` passes for every `p`. -/
def Obligations.TwoBitsPassOnlyAMultipleOf127Apart : Prop :=
  (∀ (f : List Byte) (r : Parsed) (p q : Nat), parse f = .ok r → p < q → q < 8 * f.length →
      ((∃ r', parse (differAt f (fun k => k == p || k == q)) = .ok r') ↔ (q - p) % 127 = 0)) ∧
    (∀ (f : List Byte) (r : Parsed) (p : Nat), parse f = .ok r → p + 8 < 8 * f.length →
      ∃ r', parse (differAt f (fun k => k == p || k == p + 6 || k == p + 7 || k == p + 8)) = .ok r')

/-! ### 40_checksum.md: the operations -/

/-- 40_checksum.md R75: `CRC.CLR` completes in every state; its word, its effect, nothing else written. -/
def Obligations.CrcClrClearsTheRegister : Prop :=
  decode 0x0100#16 = .ok .crcClr ∧
    ∀ s : State, exec .crcClr s = .next { s with crc := 0x00#8, status := 0x00#8 }

/-- 40_checksum.md R76: `CRC.UPD` completes in every state for every `imm8`; its word, its effect, nothing else
written; after CRC.CLR and one CRC.UPD per byte, `CRC` is the checksum of the bytes, of any number; the rule's corner
cases and example. -/
def Obligations.CrcUpdAbsorbsOneByte : Prop :=
  (∀ v : Byte, decode (BitVec.ofNat 16 (0x0200 + v.toNat)) = .ok (.crcUpd v)) ∧
    (∀ (s : State) (v : Byte),
      exec (.crcUpd v) s = .next { s with crc := crcByte s.crc v, status := 0x00#8 }) ∧
    (∀ (bs : List Byte) (s : State),
      runMoves (clearThenAbsorb bs) s = .next { s with crc := crc8 bs, status := 0x00#8 }) ∧
    (∀ s : State, s.crc = 0x00#8 → exec (.crcUpd 0x00#8) s = .next { s with status := 0x00#8 }) ∧
    (∀ s : State, exec (.crcUpd s.crc) s = .next { s with crc := 0x00#8, status := 0x00#8 }) ∧
    (∀ s : State, s.crc = 0x00#8 → exec (.crcUpd 0x31#8) s = .next { s with crc := 0x97#8, status := 0x00#8 }) ∧
    (∀ s : State, s.crc = 0x97#8 → exec (.crcUpd 0x32#8) s = .next { s with crc := 0x72#8, status := 0x00#8 })

/-- 40_checksum.md R77: `CKSUM` completes in every state; its word, its effect, nothing else written (the old `CRC`,
`DEV` and `CMD` do not enter the sum); the rule's corner cases and example. -/
def Obligations.CksumSumsTheOperand : Prop :=
  decode 0x0300#16 = .ok .cksum ∧
    (∀ s : State, exec .cksum s =
      .next { s with crc := crc8 ((List.range s.inLen.toNat).map s.readIn), status := 0x00#8 }) ∧
    (∀ s : State, s.inLen = 0x00#8 → exec .cksum s = .next { s with crc := 0x00#8, status := 0x00#8 }) ∧
    (∀ s : State, (∀ i < s.inLen.toNat, s.readIn i = 0x00#8) →
      exec .cksum s = .next { s with crc := 0x00#8, status := 0x00#8 }) ∧
    (∀ s : State, s.inLen = 0x03#8 → s.readIn 0 = 0x01#8 → s.readIn 1 = 0x04#8 → s.readIn 2 = 0x00#8 →
      exec .cksum s = .next { s with crc := 0x3F#8, status := 0x00#8 })

/-- The spec's own inference (40_checksum.md section 3, "Streaming and CKSUM agree"), over the pseudo-instructions of
30_encoding.md section 3: `CHECKSUM` and `STREAM` both end with the host reading `crc8` of the bytes; `LOAD` takes up
to 255 bytes and no more. That the value read is appended to `observed` is the model's choice (log 2). -/
def Obligations.StreamingAndCksumAgree : Prop :=
  (∀ (bs : List Byte) (ms : List HostMove) (s : State), checksumMoves bs = some ms →
      ∃ t, runMoves ms s = .next t ∧ t.crc = crc8 bs ∧ t.status = 0x00#8 ∧
        t.observed = s.observed ++ [crc8 bs]) ∧
    (∀ (bs : List Byte) (s : State), ∃ t, runMoves (streamMoves bs) s = .next t ∧ t.crc = crc8 bs ∧
      t.status = 0x00#8 ∧ t.observed = s.observed ++ [crc8 bs]) ∧
    (∀ bs : List Byte, (∃ ms, checksumMoves bs = some ms) ↔ bs.length ≤ 255)

/-! ### 41_frame_codec.md: the functions -/

/-- 41_frame_codec.md R85: exactly 16 bytes, the caller's first, zeros after; idempotent. -/
def Obligations.PaddingToSixteenBytes : Prop :=
  (∀ p : List Byte, p.length ≤ 16 → pad16 p = p ++ zeros (16 - p.length) ∧ (pad16 p).length = 16 ∧
      pad16 (pad16 p) = pad16 p) ∧
    pad16 [] = zeros 16 ∧ (∀ p : List Byte, p.length = 16 → pad16 p = p)

/-- 41_frame_codec.md R86 and the layout of 30_encoding.md R50: byte by byte, with the only failure. -/
def Obligations.FrameLayoutByteByByte : Prop :=
  (∀ (d c : Byte) (p : List Byte), 16 < p.length → frameOf d c p = .error .payloadTooLong) ∧
    (∀ (d c : Byte) (p : List Byte), p.length ≤ 16 → ∃ f, frameOf d c p = .ok f ∧ f.length = 20 ∧
      byteAt f 0 = d ∧ byteAt f 1 = c ∧ byteAt f 2 = 0x00#8 ∧
      (∀ i < p.length, byteAt f (3 + i) = byteAt p i) ∧
      (∀ i, p.length ≤ i → i < 16 → byteAt f (3 + i) = 0x00#8) ∧
      byteAt f 19 = crc8 (f.take 19)) ∧
    (∀ (d c : Byte) (p : List Byte), p.length ≤ 16 → frameOf d c p = frameOf d c (pad16 p)) ∧
    frameOf 0x00#8 0x00#8 [] = .ok (zeros 20)

/-- 41_frame_codec.md R87: the two tests in their order, and the result. -/
def Obligations.ParseTestsLengthThenChecksum : Prop :=
  ∀ s : List Byte,
    (s.length < 4 → parse s = .error .frameTooShort) ∧
    (4 ≤ s.length → crc8 (s.take (s.length - 1)) ≠ byteAt s (s.length - 1) → parse s = .error .checksumMismatch) ∧
    (4 ≤ s.length → crc8 (s.take (s.length - 1)) = byteAt s (s.length - 1) →
      ∃ p, parse s = .ok ⟨byteAt s 0, byteAt s 1, byteAt s 2, p⟩ ∧ p.length = s.length - 4 ∧
        ∀ i < p.length, byteAt p i = byteAt s (3 + i))

/-- The spec's own inference (41_frame_codec.md section 1, "Round trip"), both directions: decoding an encoded frame
gives it back with the payload padded, and a 20-byte sequence with a zero reserved byte that `parse` accepts is the
frame of what `parse` reads from it. -/
def Obligations.FrameRoundTrip : Prop :=
  (∀ (d c : Byte) (p : List Byte), p.length ≤ 16 →
      ∃ f, frameOf d c p = .ok f ∧ parse f = .ok ⟨d, c, 0x00#8, pad16 p⟩) ∧
    (∀ (s : List Byte) (r : Parsed), s.length = 20 → byteAt s 2 = 0x00#8 → parse s = .ok r →
      frameOf r.device r.command r.payload = .ok s)

/-- The spec's own inference (41_frame_codec.md section 1, "Acceptance as a residue"). -/
def Obligations.AcceptanceIsZeroResidue : Prop :=
  ∀ s : List Byte, 4 ≤ s.length → ((∃ r, parse s = .ok r) ↔ crc8 s = 0x00#8)

/-! ### 41_frame_codec.md: the operations -/

/-- 41_frame_codec.md R91: `ENCODE`, its word; where it completes (`IN_LEN` 0 to 16), what each cell and register
holds and what is unchanged, every other byte of both buffers included; where it raises `PayloadTooLong` (17 to 255),
that `STATUS.ERR` and `OUT_LEN` alone change; the rule's example. -/
def Obligations.EncodeBuildsTheFrame : Prop :=
  decode 0x0400#16 = .ok .encode ∧
    (∀ s : State, s.inLen.toNat ≤ 16 → ∃ t, exec .encode s = .next t ∧
      t.readOut 0 = s.dev ∧ t.readOut 1 = s.cmd ∧ t.readOut 2 = 0x00#8 ∧
      (∀ i < s.inLen.toNat, t.readOut (3 + i) = s.readIn i) ∧
      (∀ i, s.inLen.toNat ≤ i → i < 16 → t.readOut (3 + i) = 0x00#8) ∧
      t.readOut 19 = crc8 ((List.range 19).map t.readOut) ∧ t.crc = t.readOut 19 ∧
      t.outLen = 20#8 ∧ t.status = 0x00#8 ∧
      frameOf s.dev s.cmd ((List.range s.inLen.toNat).map s.readIn) = .ok ((List.range 20).map t.readOut) ∧
      (∀ i, 20 ≤ i → t.readOut i = s.readOut i) ∧
      keepsOperands s t ∧ keepsHeader s t ∧ keepsHost s t) ∧
    (∀ s : State, 16 < s.inLen.toNat → exec .encode s = .next { s with status := 0x01#8, outLen := 0x00#8 }) ∧
    (∀ s : State, s.dev = 0x01#8 → s.cmd = 0x04#8 → s.inLen = 8#8 →
      (List.range 8).map s.readIn = [0x00#8, 0x00#8, 0x00#8, 0x64#8, 0x00#8, 0x00#8, 0x00#8, 0x9C#8] →
      ∃ t, exec .encode s = .next t ∧ t.crc = 0xB6#8 ∧ (List.range 20).map t.readOut =
        [0x01#8, 0x04#8, 0x00#8, 0x00#8, 0x00#8, 0x00#8, 0x64#8, 0x00#8, 0x00#8, 0x00#8, 0x9C#8, 0x00#8,
          0x00#8, 0x00#8, 0x00#8, 0x00#8, 0x00#8, 0x00#8, 0x00#8, 0xB6#8])

/-- 41_frame_codec.md R95: `DECODE`, its word; where it completes (`IN_LEN` at least 4 and the last byte the checksum
of the others), what each cell and register holds and what is unchanged, every other byte of both buffers included;
where it raises `FrameTooShort` (0 to 3) and `ChecksumMismatch`, what alone changes; the rule's example. -/
def Obligations.DecodeTakesApartTheFrame : Prop :=
  decode 0x0500#16 = .ok .decode ∧
    (∀ s : State, 4 ≤ s.inLen.toNat →
      crc8 ((List.range (s.inLen.toNat - 1)).map s.readIn) = s.readIn (s.inLen.toNat - 1) →
      ∃ t, exec .decode s = .next t ∧
        t.rdev = s.readIn 0 ∧ t.rcmd = s.readIn 1 ∧ t.rrsv = s.readIn 2 ∧
        t.crc = s.readIn (s.inLen.toNat - 1) ∧ t.outLen.toNat = s.inLen.toNat - 4 ∧ t.status = 0x00#8 ∧
        (∀ i < s.inLen.toNat - 4, t.readOut i = s.readIn (3 + i)) ∧
        (∀ i, s.inLen.toNat - 4 ≤ i → t.readOut i = s.readOut i) ∧
        parse ((List.range s.inLen.toNat).map s.readIn) =
          .ok ⟨t.rdev, t.rcmd, t.rrsv, (List.range t.outLen.toNat).map t.readOut⟩ ∧
        keepsOperands s t ∧ keepsHost s t) ∧
    (∀ s : State, s.inLen.toNat < 4 → exec .decode s = .next { s with status := 0x02#8, outLen := 0x00#8 }) ∧
    (∀ s : State, 4 ≤ s.inLen.toNat →
      crc8 ((List.range (s.inLen.toNat - 1)).map s.readIn) ≠ s.readIn (s.inLen.toNat - 1) →
      exec .decode s = .next { s with
        status := 0x03#8, outLen := 0x00#8, crc := crc8 ((List.range (s.inLen.toNat - 1)).map s.readIn) }) ∧
    (∀ s : State, s.inLen = 20#8 → (List.range 20).map s.readIn =
        [0x01#8, 0x04#8, 0x00#8, 0x00#8, 0x00#8, 0x00#8, 0x64#8, 0x00#8, 0x00#8, 0x00#8, 0x9C#8, 0x00#8,
          0x00#8, 0x00#8, 0x00#8, 0x00#8, 0x00#8, 0x00#8, 0x00#8, 0xB6#8] →
      ∃ t, exec .decode s = .next t ∧ t.status = 0x00#8 ∧ t.rdev = 0x01#8 ∧ t.rcmd = 0x04#8 ∧
        t.rrsv = 0x00#8 ∧ t.outLen = 16#8 ∧ t.crc = 0xB6#8 ∧ (List.range 16).map t.readOut =
          [0x00#8, 0x00#8, 0x00#8, 0x64#8, 0x00#8, 0x00#8, 0x00#8, 0x9C#8, 0x00#8, 0x00#8, 0x00#8, 0x00#8,
            0x00#8, 0x00#8, 0x00#8, 0x00#8])

/-- The spec's own inference (41_frame_codec.md section 2, "DECODE after ENCODE"): after a successful ENCODE, the moves
of `LOOPBACK` and then `DECODE` succeed and give back device, command and padded payload; `OUT[16..19]` still hold
frame bytes 16 to 19. That `LOOPBACK` is expanded from the state it begins in is the model's choice (log 10). -/
def Obligations.DecodeAfterEncodeGivesItBack : Prop :=
  ∀ s : State, s.inLen.toNat ≤ 16 → ∃ t u v,
    exec .encode s = .next t ∧ runMoves (loopbackMoves t) t = .next u ∧ exec .decode u = .next v ∧
      v.status = 0x00#8 ∧ v.rdev = s.dev ∧ v.rcmd = s.cmd ∧ v.rrsv = 0x00#8 ∧ v.outLen = 16#8 ∧
      (∀ i < s.inLen.toNat, v.readOut i = s.readIn i) ∧
      (∀ i, s.inLen.toNat ≤ i → i < 16 → v.readOut i = 0x00#8) ∧
      (∀ i, 16 ≤ i → v.readOut i = t.readOut i)

/-- The document's two contracts, end to end through the pseudo-instructions of 30_encoding.md section 3: from any
state, `ENC d, c, [p]` leaves what `frame_of(d, c, p)` is, and `DEC [f]` leaves what `parse(f)` is, the error kind in
`STATUS` where it fails. That the value the host reads last is appended to `observed` is the model's choice (log 2). -/
def Obligations.EncAndDecMeetTheFunctions : Prop :=
  (∀ (d c : Byte) (p : List Byte) (ms : List HostMove) (s : State), encMoves d c p = some ms →
      ∃ t, runMoves ms s = .next t ∧ t.observed = s.observed ++ [t.status] ∧
        ((∃ f, frameOf d c p = .ok f ∧ t.status = 0x00#8 ∧ t.resultSeq = f) ∨
          (∃ e, frameOf d c p = .error e ∧ t.status = statusWord e ∧ t.resultSeq = []))) ∧
    (∀ (f : List Byte) (ms : List HostMove) (s : State), decMoves f = some ms →
      ∃ t, runMoves ms s = .next t ∧ t.observed = s.observed ++ [t.status] ∧
        ((∃ p, parse f = .ok ⟨t.rdev, t.rcmd, t.rrsv, p⟩ ∧ t.status = 0x00#8 ∧ t.resultSeq = p) ∨
          (∃ e, parse f = .error e ∧ t.status = statusWord e ∧ t.resultSeq = []))) ∧
    (∀ (d c : Byte) (bs : List Byte), bs.length ≤ 255 →
      (∃ ms, encMoves d c bs = some ms) ∧ ∃ ms, decMoves bs = some ms)

/-! ### 60_exceptions.md: errors -/

/-- 60_exceptions.md R110: for every command word in every state, each error code is reported exactly when the table
says, with what the table records; codes 5 to 7 are never produced. -/
def Obligations.EachErrorExactlyWhen : Prop :=
  ∀ (w : CmdWord) (s t : State), doMove (.hcmd w) s = .next t →
    (errField t.status).toNat ≤ 4 ∧
    (errField t.status = 1#3 ↔ w = 0x0400#16 ∧ 16 < s.inLen.toNat) ∧
    (errField t.status = 2#3 ↔ w = 0x0500#16 ∧ s.inLen.toNat < 4) ∧
    (errField t.status = 3#3 ↔ w = 0x0500#16 ∧ 4 ≤ s.inLen.toNat ∧
      crc8 ((List.range (s.inLen.toNat - 1)).map s.readIn) ≠ s.readIn (s.inLen.toNat - 1)) ∧
    (errField t.status = 4#3 ↔ legalWord w = false) ∧
    (frameError t.status → t.outLen = 0x00#8) ∧
    (errField t.status = 3#3 → t.crc = crc8 ((List.range (s.inLen.toNat - 1)).map s.readIn))

/-- 60_exceptions.md R112: an illegal word sets `ERR` to 4 and changes nothing else. -/
def Obligations.IllegalWordOnlySetsErr : Prop :=
  ∀ (w : CmdWord) (s : State), legalWord w = false → doMove (.hcmd w) s = .next { s with status := 0x04#8 }

/-- 60_exceptions.md R113: when ENCODE or DECODE raises one of the three frame errors, `STATUS` becomes its code (1 for
ENCODE, 2 for DECODE with `IN_LEN < 4`, 3 for DECODE otherwise) with bits 7:3 zero, `OUT_LEN` becomes 0, `CRC` is the
recomputed checksum for `ChecksumMismatch` only, and no other state changes. -/
def Obligations.ErrorResponseIsPrecise : Prop :=
  (∀ s t : State, exec .encode s = .next t → frameError t.status →
      t = { s with status := 0x01#8, outLen := 0x00#8 }) ∧
    (∀ s t : State, exec .decode s = .next t → frameError t.status → s.inLen.toNat < 4 →
      t = { s with status := 0x02#8, outLen := 0x00#8 }) ∧
    (∀ s t : State, exec .decode s = .next t → frameError t.status → 4 ≤ s.inLen.toNat →
      t = { s with
        status := 0x03#8
        outLen := 0x00#8
        crc := crc8 ((List.range (s.inLen.toNat - 1)).map s.readIn) })

/-- 60_exceptions.md section 2 ("Return and nesting"): an error "does not stop the block, does not lock any state";
the next command word is performed the same whatever `STATUS` held. -/
def Obligations.OldErrorNeverMatters : Prop :=
  ∀ (w : CmdWord) (s : State) (st : Byte), doMove (.hcmd w) { s with status := st } = doMove (.hcmd w) s

/-- 60_exceptions.md section 1: "CRC.CLR, CRC.UPD and CKSUM raise nothing". A host that makes port moves and issues
only those command words, in any order and number, never sees an error. -/
def Obligations.ChecksumHostNeverSeesAnError : Prop :=
  ∀ (ms : List HostMove) (s : State), s.succeeded →
    (∀ w, HostMove.hcmd w ∈ ms → w = 0x0100#16 ∨ (∃ v : Byte, w = BitVec.ofNat 16 (0x0200 + v.toNat)) ∨
      w = 0x0300#16) →
    cleanRun ms s

/-! ### 70_reset_and_hazards.md: reset, runs, the step -/

/-- 70_reset_and_hazards.md R130: the reset state and the state after an `HRESET` made in any state have every register
`0x00`; and a buffer cell keeps its value between writes: no move but a write of that cell, an operation that writes
it, or an `HRESET` changes what it reads as. -/
def Obligations.ResetZeroesRegistersAndCellsAreStable : Prop :=
  registersZero State.reset ∧
    (∀ s : State, ∃ t, doMove .hreset s = .next t ∧ registersZero t) ∧
    (∀ (m : HostMove) (s t : State) (i : Nat), doMove m s = .next t → m ≠ .hreset →
      (∀ j v, m = .hwrin j v → j.toNat ≠ i) → t.readIn i = s.readIn i) ∧
    (∀ (m : HostMove) (s t : State) (i : Nat), doMove m s = .next t → m ≠ .hreset → m ≠ .hcmd 0x0400#16 →
      m ≠ .hcmd 0x0500#16 → t.readOut i = s.readOut i)

/-- The model's choice (log 3) for the "unspecified-stable" contents of 70_reset_and_hazards.md section 1: after an
`HRESET` every cell of both buffers holds the free byte of a new draw, whatever it held before. -/
def Obligations.ResetDrawsBuffersAfresh : Prop :=
  ∀ s : State, ∃ t, doMove .hreset s = .next t ∧ t.draws = s.draws + 1 ∧
    ∀ i, t.readIn i = Config.initByte .operand (s.draws + 1) i ∧ t.readOut i = Config.initByte .result (s.draws + 1) i

/-- 70_reset_and_hazards.md section 2: "every host move is defined in every state (the step function is total)", for
one move, for any sequence of moves, and for the step. -/
def Obligations.NothingEverStops : Prop :=
  (∀ (m : HostMove) (s : State), ∃ t, doMove m s = .next t) ∧
    (∀ (ms : List HostMove) (s : State), ∃ t, runMoves ms s = .next t) ∧ ∀ s : State, ∃ t, step s = .next t

/-- The model's choice (log 1) of how a run (70_reset_and_hazards.md section 2) is stepped: as many steps as the host
has moves left make exactly those moves, in order, and end with none left; further steps change nothing. -/
def Obligations.RunMakesTheScriptInOrder : Prop :=
  ∀ (s : State) (k : Nat), ∃ t, runMoves s.script { s with script := [] } = .next t ∧ t.script = [] ∧
    Host.Core.run Sys2Proof.core (s.script.length + k) s = .next t

/-- The model's choice (log 1) of what is next: when the host's next move delivers a word that decodes to `i`, the step
is `exec i` on the state with that move taken off the script; an illegal word sets `ERR`; and the word placed by
`withFetchWord` is the very next one. -/
def Obligations.StepRunsTheCommandWord : Prop :=
  (∀ (s : State) (w : CmdWord) (i : Instr) (ms : List HostMove), s.script = .hcmd w :: ms → decode w = .ok i →
      step s = exec i { s with script := ms }) ∧
    (∀ (s : State) (w : CmdWord) (e : Illegal) (ms : List HostMove), s.script = .hcmd w :: ms →
      decode w = .error e → step s = .next { s with script := ms, status := 0x04#8 }) ∧
    (∀ (s : State) (w : CmdWord) (i : Instr), decode w = .ok i → step (s.withFetchWord 16 w.toNat) = exec i s)

/-- The invariant of Safety.lean holds at reset. Its canonical form of the two buffers, of which reset lists no cell, is
the model's choice (log 3, log 4). -/
def Obligations.InvariantAtReset : Prop := State.reset.Inv

/-- The invariant of Safety.lean (10_state.md sections 2 and 3, 60_exceptions.md sections 1 and 2): every step keeps
both buffers canonical (the model's choice, log 4), `STATUS` bits 7:3 zero and `ERR` at most 4, `OUT_LEN` at most 251, no result after a
frame error, and no reset leftover inside a result. -/
def Obligations.StepKeepsTheInvariant : Prop :=
  ∀ s t : State, s.Inv → step s = .next t → t.Inv
end

