-- ==== Sys2Proof/Laws/State.lean ====
section
/-! SUPPORT. One lemma per field per update of State, each true by rfl, so that no proof unfolds a record update. -/

namespace Sys2Proof.Machine

/-! ### setErr -/

@[simp] theorem State.setErr_status (s : State) (e : ErrKind) : (s.setErr e).status = statusWord e := rfl
@[simp] theorem State.setErr_crc (s : State) (e : ErrKind) : (s.setErr e).crc = s.crc := rfl
@[simp] theorem State.setErr_dev (s : State) (e : ErrKind) : (s.setErr e).dev = s.dev := rfl
@[simp] theorem State.setErr_cmd (s : State) (e : ErrKind) : (s.setErr e).cmd = s.cmd := rfl
@[simp] theorem State.setErr_inLen (s : State) (e : ErrKind) : (s.setErr e).inLen = s.inLen := rfl
@[simp] theorem State.setErr_outLen (s : State) (e : ErrKind) : (s.setErr e).outLen = s.outLen := rfl
@[simp] theorem State.setErr_rdev (s : State) (e : ErrKind) : (s.setErr e).rdev = s.rdev := rfl
@[simp] theorem State.setErr_rcmd (s : State) (e : ErrKind) : (s.setErr e).rcmd = s.rcmd := rfl
@[simp] theorem State.setErr_rrsv (s : State) (e : ErrKind) : (s.setErr e).rrsv = s.rrsv := rfl
@[simp] theorem State.setErr_inBuf (s : State) (e : ErrKind) : (s.setErr e).inBuf = s.inBuf := rfl
@[simp] theorem State.setErr_outBuf (s : State) (e : ErrKind) : (s.setErr e).outBuf = s.outBuf := rfl
@[simp] theorem State.setErr_draws (s : State) (e : ErrKind) : (s.setErr e).draws = s.draws := rfl
@[simp] theorem State.setErr_script (s : State) (e : ErrKind) : (s.setErr e).script = s.script := rfl
@[simp] theorem State.setErr_observed (s : State) (e : ErrKind) : (s.setErr e).observed = s.observed := rfl
@[simp] theorem State.setErr_readIn (s : State) (e : ErrKind) (j : Nat) : (s.setErr e).readIn j = s.readIn j := rfl
@[simp] theorem State.setErr_readOut (s : State) (e : ErrKind) (j : Nat) : (s.setErr e).readOut j = s.readOut j := rfl
@[simp] theorem State.setErr_inSeq (s : State) (e : ErrKind) (lo len : Nat) : (s.setErr e).inSeq lo len = s.inSeq lo len := rfl

/-! ### setCrc -/

@[simp] theorem State.setCrc_status (s : State) (v : Byte) : (s.setCrc v).status = s.status := rfl
@[simp] theorem State.setCrc_crc (s : State) (v : Byte) : (s.setCrc v).crc = v := rfl
@[simp] theorem State.setCrc_dev (s : State) (v : Byte) : (s.setCrc v).dev = s.dev := rfl
@[simp] theorem State.setCrc_cmd (s : State) (v : Byte) : (s.setCrc v).cmd = s.cmd := rfl
@[simp] theorem State.setCrc_inLen (s : State) (v : Byte) : (s.setCrc v).inLen = s.inLen := rfl
@[simp] theorem State.setCrc_outLen (s : State) (v : Byte) : (s.setCrc v).outLen = s.outLen := rfl
@[simp] theorem State.setCrc_rdev (s : State) (v : Byte) : (s.setCrc v).rdev = s.rdev := rfl
@[simp] theorem State.setCrc_rcmd (s : State) (v : Byte) : (s.setCrc v).rcmd = s.rcmd := rfl
@[simp] theorem State.setCrc_rrsv (s : State) (v : Byte) : (s.setCrc v).rrsv = s.rrsv := rfl
@[simp] theorem State.setCrc_inBuf (s : State) (v : Byte) : (s.setCrc v).inBuf = s.inBuf := rfl
@[simp] theorem State.setCrc_outBuf (s : State) (v : Byte) : (s.setCrc v).outBuf = s.outBuf := rfl
@[simp] theorem State.setCrc_draws (s : State) (v : Byte) : (s.setCrc v).draws = s.draws := rfl
@[simp] theorem State.setCrc_script (s : State) (v : Byte) : (s.setCrc v).script = s.script := rfl
@[simp] theorem State.setCrc_observed (s : State) (v : Byte) : (s.setCrc v).observed = s.observed := rfl
@[simp] theorem State.setCrc_readIn (s : State) (v : Byte) (j : Nat) : (s.setCrc v).readIn j = s.readIn j := rfl
@[simp] theorem State.setCrc_readOut (s : State) (v : Byte) (j : Nat) : (s.setCrc v).readOut j = s.readOut j := rfl
@[simp] theorem State.setCrc_inSeq (s : State) (v : Byte) (lo len : Nat) : (s.setCrc v).inSeq lo len = s.inSeq lo len := rfl

/-! ### setDev -/

@[simp] theorem State.setDev_status (s : State) (v : Byte) : (s.setDev v).status = s.status := rfl
@[simp] theorem State.setDev_crc (s : State) (v : Byte) : (s.setDev v).crc = s.crc := rfl
@[simp] theorem State.setDev_dev (s : State) (v : Byte) : (s.setDev v).dev = v := rfl
@[simp] theorem State.setDev_cmd (s : State) (v : Byte) : (s.setDev v).cmd = s.cmd := rfl
@[simp] theorem State.setDev_inLen (s : State) (v : Byte) : (s.setDev v).inLen = s.inLen := rfl
@[simp] theorem State.setDev_outLen (s : State) (v : Byte) : (s.setDev v).outLen = s.outLen := rfl
@[simp] theorem State.setDev_rdev (s : State) (v : Byte) : (s.setDev v).rdev = s.rdev := rfl
@[simp] theorem State.setDev_rcmd (s : State) (v : Byte) : (s.setDev v).rcmd = s.rcmd := rfl
@[simp] theorem State.setDev_rrsv (s : State) (v : Byte) : (s.setDev v).rrsv = s.rrsv := rfl
@[simp] theorem State.setDev_inBuf (s : State) (v : Byte) : (s.setDev v).inBuf = s.inBuf := rfl
@[simp] theorem State.setDev_outBuf (s : State) (v : Byte) : (s.setDev v).outBuf = s.outBuf := rfl
@[simp] theorem State.setDev_draws (s : State) (v : Byte) : (s.setDev v).draws = s.draws := rfl
@[simp] theorem State.setDev_script (s : State) (v : Byte) : (s.setDev v).script = s.script := rfl
@[simp] theorem State.setDev_observed (s : State) (v : Byte) : (s.setDev v).observed = s.observed := rfl
@[simp] theorem State.setDev_readIn (s : State) (v : Byte) (j : Nat) : (s.setDev v).readIn j = s.readIn j := rfl
@[simp] theorem State.setDev_readOut (s : State) (v : Byte) (j : Nat) : (s.setDev v).readOut j = s.readOut j := rfl
@[simp] theorem State.setDev_inSeq (s : State) (v : Byte) (lo len : Nat) : (s.setDev v).inSeq lo len = s.inSeq lo len := rfl

/-! ### setCmd -/

@[simp] theorem State.setCmd_status (s : State) (v : Byte) : (s.setCmd v).status = s.status := rfl
@[simp] theorem State.setCmd_crc (s : State) (v : Byte) : (s.setCmd v).crc = s.crc := rfl
@[simp] theorem State.setCmd_dev (s : State) (v : Byte) : (s.setCmd v).dev = s.dev := rfl
@[simp] theorem State.setCmd_cmd (s : State) (v : Byte) : (s.setCmd v).cmd = v := rfl
@[simp] theorem State.setCmd_inLen (s : State) (v : Byte) : (s.setCmd v).inLen = s.inLen := rfl
@[simp] theorem State.setCmd_outLen (s : State) (v : Byte) : (s.setCmd v).outLen = s.outLen := rfl
@[simp] theorem State.setCmd_rdev (s : State) (v : Byte) : (s.setCmd v).rdev = s.rdev := rfl
@[simp] theorem State.setCmd_rcmd (s : State) (v : Byte) : (s.setCmd v).rcmd = s.rcmd := rfl
@[simp] theorem State.setCmd_rrsv (s : State) (v : Byte) : (s.setCmd v).rrsv = s.rrsv := rfl
@[simp] theorem State.setCmd_inBuf (s : State) (v : Byte) : (s.setCmd v).inBuf = s.inBuf := rfl
@[simp] theorem State.setCmd_outBuf (s : State) (v : Byte) : (s.setCmd v).outBuf = s.outBuf := rfl
@[simp] theorem State.setCmd_draws (s : State) (v : Byte) : (s.setCmd v).draws = s.draws := rfl
@[simp] theorem State.setCmd_script (s : State) (v : Byte) : (s.setCmd v).script = s.script := rfl
@[simp] theorem State.setCmd_observed (s : State) (v : Byte) : (s.setCmd v).observed = s.observed := rfl
@[simp] theorem State.setCmd_readIn (s : State) (v : Byte) (j : Nat) : (s.setCmd v).readIn j = s.readIn j := rfl
@[simp] theorem State.setCmd_readOut (s : State) (v : Byte) (j : Nat) : (s.setCmd v).readOut j = s.readOut j := rfl
@[simp] theorem State.setCmd_inSeq (s : State) (v : Byte) (lo len : Nat) : (s.setCmd v).inSeq lo len = s.inSeq lo len := rfl

/-! ### setInLen -/

@[simp] theorem State.setInLen_status (s : State) (v : Byte) : (s.setInLen v).status = s.status := rfl
@[simp] theorem State.setInLen_crc (s : State) (v : Byte) : (s.setInLen v).crc = s.crc := rfl
@[simp] theorem State.setInLen_dev (s : State) (v : Byte) : (s.setInLen v).dev = s.dev := rfl
@[simp] theorem State.setInLen_cmd (s : State) (v : Byte) : (s.setInLen v).cmd = s.cmd := rfl
@[simp] theorem State.setInLen_inLen (s : State) (v : Byte) : (s.setInLen v).inLen = v := rfl
@[simp] theorem State.setInLen_outLen (s : State) (v : Byte) : (s.setInLen v).outLen = s.outLen := rfl
@[simp] theorem State.setInLen_rdev (s : State) (v : Byte) : (s.setInLen v).rdev = s.rdev := rfl
@[simp] theorem State.setInLen_rcmd (s : State) (v : Byte) : (s.setInLen v).rcmd = s.rcmd := rfl
@[simp] theorem State.setInLen_rrsv (s : State) (v : Byte) : (s.setInLen v).rrsv = s.rrsv := rfl
@[simp] theorem State.setInLen_inBuf (s : State) (v : Byte) : (s.setInLen v).inBuf = s.inBuf := rfl
@[simp] theorem State.setInLen_outBuf (s : State) (v : Byte) : (s.setInLen v).outBuf = s.outBuf := rfl
@[simp] theorem State.setInLen_draws (s : State) (v : Byte) : (s.setInLen v).draws = s.draws := rfl
@[simp] theorem State.setInLen_script (s : State) (v : Byte) : (s.setInLen v).script = s.script := rfl
@[simp] theorem State.setInLen_observed (s : State) (v : Byte) : (s.setInLen v).observed = s.observed := rfl
@[simp] theorem State.setInLen_readIn (s : State) (v : Byte) (j : Nat) : (s.setInLen v).readIn j = s.readIn j := rfl
@[simp] theorem State.setInLen_readOut (s : State) (v : Byte) (j : Nat) : (s.setInLen v).readOut j = s.readOut j := rfl
@[simp] theorem State.setInLen_inSeq (s : State) (v : Byte) (lo len : Nat) : (s.setInLen v).inSeq lo len = s.inSeq lo len := rfl

/-! ### setOutLen -/

@[simp] theorem State.setOutLen_status (s : State) (v : Byte) : (s.setOutLen v).status = s.status := rfl
@[simp] theorem State.setOutLen_crc (s : State) (v : Byte) : (s.setOutLen v).crc = s.crc := rfl
@[simp] theorem State.setOutLen_dev (s : State) (v : Byte) : (s.setOutLen v).dev = s.dev := rfl
@[simp] theorem State.setOutLen_cmd (s : State) (v : Byte) : (s.setOutLen v).cmd = s.cmd := rfl
@[simp] theorem State.setOutLen_inLen (s : State) (v : Byte) : (s.setOutLen v).inLen = s.inLen := rfl
@[simp] theorem State.setOutLen_outLen (s : State) (v : Byte) : (s.setOutLen v).outLen = v := rfl
@[simp] theorem State.setOutLen_rdev (s : State) (v : Byte) : (s.setOutLen v).rdev = s.rdev := rfl
@[simp] theorem State.setOutLen_rcmd (s : State) (v : Byte) : (s.setOutLen v).rcmd = s.rcmd := rfl
@[simp] theorem State.setOutLen_rrsv (s : State) (v : Byte) : (s.setOutLen v).rrsv = s.rrsv := rfl
@[simp] theorem State.setOutLen_inBuf (s : State) (v : Byte) : (s.setOutLen v).inBuf = s.inBuf := rfl
@[simp] theorem State.setOutLen_outBuf (s : State) (v : Byte) : (s.setOutLen v).outBuf = s.outBuf := rfl
@[simp] theorem State.setOutLen_draws (s : State) (v : Byte) : (s.setOutLen v).draws = s.draws := rfl
@[simp] theorem State.setOutLen_script (s : State) (v : Byte) : (s.setOutLen v).script = s.script := rfl
@[simp] theorem State.setOutLen_observed (s : State) (v : Byte) : (s.setOutLen v).observed = s.observed := rfl
@[simp] theorem State.setOutLen_readIn (s : State) (v : Byte) (j : Nat) : (s.setOutLen v).readIn j = s.readIn j := rfl
@[simp] theorem State.setOutLen_readOut (s : State) (v : Byte) (j : Nat) : (s.setOutLen v).readOut j = s.readOut j := rfl
@[simp] theorem State.setOutLen_inSeq (s : State) (v : Byte) (lo len : Nat) : (s.setOutLen v).inSeq lo len = s.inSeq lo len := rfl

/-! ### setHeader -/

@[simp] theorem State.setHeader_status (s : State) (d c r : Byte) : (s.setHeader d c r).status = s.status := rfl
@[simp] theorem State.setHeader_crc (s : State) (d c r : Byte) : (s.setHeader d c r).crc = s.crc := rfl
@[simp] theorem State.setHeader_dev (s : State) (d c r : Byte) : (s.setHeader d c r).dev = s.dev := rfl
@[simp] theorem State.setHeader_cmd (s : State) (d c r : Byte) : (s.setHeader d c r).cmd = s.cmd := rfl
@[simp] theorem State.setHeader_inLen (s : State) (d c r : Byte) : (s.setHeader d c r).inLen = s.inLen := rfl
@[simp] theorem State.setHeader_outLen (s : State) (d c r : Byte) : (s.setHeader d c r).outLen = s.outLen := rfl
@[simp] theorem State.setHeader_rdev (s : State) (d c r : Byte) : (s.setHeader d c r).rdev = d := rfl
@[simp] theorem State.setHeader_rcmd (s : State) (d c r : Byte) : (s.setHeader d c r).rcmd = c := rfl
@[simp] theorem State.setHeader_rrsv (s : State) (d c r : Byte) : (s.setHeader d c r).rrsv = r := rfl
@[simp] theorem State.setHeader_inBuf (s : State) (d c r : Byte) : (s.setHeader d c r).inBuf = s.inBuf := rfl
@[simp] theorem State.setHeader_outBuf (s : State) (d c r : Byte) : (s.setHeader d c r).outBuf = s.outBuf := rfl
@[simp] theorem State.setHeader_draws (s : State) (d c r : Byte) : (s.setHeader d c r).draws = s.draws := rfl
@[simp] theorem State.setHeader_script (s : State) (d c r : Byte) : (s.setHeader d c r).script = s.script := rfl
@[simp] theorem State.setHeader_observed (s : State) (d c r : Byte) : (s.setHeader d c r).observed = s.observed := rfl
@[simp] theorem State.setHeader_readIn (s : State) (d c r : Byte) (j : Nat) : (s.setHeader d c r).readIn j = s.readIn j := rfl
@[simp] theorem State.setHeader_readOut (s : State) (d c r : Byte) (j : Nat) : (s.setHeader d c r).readOut j = s.readOut j := rfl
@[simp] theorem State.setHeader_inSeq (s : State) (d c r : Byte) (lo len : Nat) : (s.setHeader d c r).inSeq lo len = s.inSeq lo len := rfl

/-! ### writeIn -/

@[simp] theorem State.writeIn_status (s : State) (i : Nat) (v : Byte) : (s.writeIn i v).status = s.status := rfl
@[simp] theorem State.writeIn_crc (s : State) (i : Nat) (v : Byte) : (s.writeIn i v).crc = s.crc := rfl
@[simp] theorem State.writeIn_dev (s : State) (i : Nat) (v : Byte) : (s.writeIn i v).dev = s.dev := rfl
@[simp] theorem State.writeIn_cmd (s : State) (i : Nat) (v : Byte) : (s.writeIn i v).cmd = s.cmd := rfl
@[simp] theorem State.writeIn_inLen (s : State) (i : Nat) (v : Byte) : (s.writeIn i v).inLen = s.inLen := rfl
@[simp] theorem State.writeIn_outLen (s : State) (i : Nat) (v : Byte) : (s.writeIn i v).outLen = s.outLen := rfl
@[simp] theorem State.writeIn_rdev (s : State) (i : Nat) (v : Byte) : (s.writeIn i v).rdev = s.rdev := rfl
@[simp] theorem State.writeIn_rcmd (s : State) (i : Nat) (v : Byte) : (s.writeIn i v).rcmd = s.rcmd := rfl
@[simp] theorem State.writeIn_rrsv (s : State) (i : Nat) (v : Byte) : (s.writeIn i v).rrsv = s.rrsv := rfl
@[simp] theorem State.writeIn_inBuf (s : State) (i : Nat) (v : Byte) : (s.writeIn i v).inBuf = s.inBuf.write i v := rfl
@[simp] theorem State.writeIn_outBuf (s : State) (i : Nat) (v : Byte) : (s.writeIn i v).outBuf = s.outBuf := rfl
@[simp] theorem State.writeIn_draws (s : State) (i : Nat) (v : Byte) : (s.writeIn i v).draws = s.draws := rfl
@[simp] theorem State.writeIn_script (s : State) (i : Nat) (v : Byte) : (s.writeIn i v).script = s.script := rfl
@[simp] theorem State.writeIn_observed (s : State) (i : Nat) (v : Byte) : (s.writeIn i v).observed = s.observed := rfl
@[simp] theorem State.writeIn_readOut (s : State) (i : Nat) (v : Byte) (j : Nat) : (s.writeIn i v).readOut j = s.readOut j := rfl

/-! ### writeOut -/

@[simp] theorem State.writeOut_status (s : State) (vs : List Byte) : (s.writeOut vs).status = s.status := rfl
@[simp] theorem State.writeOut_crc (s : State) (vs : List Byte) : (s.writeOut vs).crc = s.crc := rfl
@[simp] theorem State.writeOut_dev (s : State) (vs : List Byte) : (s.writeOut vs).dev = s.dev := rfl
@[simp] theorem State.writeOut_cmd (s : State) (vs : List Byte) : (s.writeOut vs).cmd = s.cmd := rfl
@[simp] theorem State.writeOut_inLen (s : State) (vs : List Byte) : (s.writeOut vs).inLen = s.inLen := rfl
@[simp] theorem State.writeOut_outLen (s : State) (vs : List Byte) : (s.writeOut vs).outLen = s.outLen := rfl
@[simp] theorem State.writeOut_rdev (s : State) (vs : List Byte) : (s.writeOut vs).rdev = s.rdev := rfl
@[simp] theorem State.writeOut_rcmd (s : State) (vs : List Byte) : (s.writeOut vs).rcmd = s.rcmd := rfl
@[simp] theorem State.writeOut_rrsv (s : State) (vs : List Byte) : (s.writeOut vs).rrsv = s.rrsv := rfl
@[simp] theorem State.writeOut_inBuf (s : State) (vs : List Byte) : (s.writeOut vs).inBuf = s.inBuf := rfl
@[simp] theorem State.writeOut_outBuf (s : State) (vs : List Byte) : (s.writeOut vs).outBuf = s.outBuf.writeSeq 0 vs := rfl
@[simp] theorem State.writeOut_draws (s : State) (vs : List Byte) : (s.writeOut vs).draws = s.draws := rfl
@[simp] theorem State.writeOut_script (s : State) (vs : List Byte) : (s.writeOut vs).script = s.script := rfl
@[simp] theorem State.writeOut_observed (s : State) (vs : List Byte) : (s.writeOut vs).observed = s.observed := rfl
@[simp] theorem State.writeOut_readIn (s : State) (vs : List Byte) (j : Nat) : (s.writeOut vs).readIn j = s.readIn j := rfl
@[simp] theorem State.writeOut_inSeq (s : State) (vs : List Byte) (lo len : Nat) : (s.writeOut vs).inSeq lo len = s.inSeq lo len := rfl

/-! ### setScript -/

@[simp] theorem State.setScript_status (s : State) (ms : List HostMove) : (s.setScript ms).status = s.status := rfl
@[simp] theorem State.setScript_crc (s : State) (ms : List HostMove) : (s.setScript ms).crc = s.crc := rfl
@[simp] theorem State.setScript_dev (s : State) (ms : List HostMove) : (s.setScript ms).dev = s.dev := rfl
@[simp] theorem State.setScript_cmd (s : State) (ms : List HostMove) : (s.setScript ms).cmd = s.cmd := rfl
@[simp] theorem State.setScript_inLen (s : State) (ms : List HostMove) : (s.setScript ms).inLen = s.inLen := rfl
@[simp] theorem State.setScript_outLen (s : State) (ms : List HostMove) : (s.setScript ms).outLen = s.outLen := rfl
@[simp] theorem State.setScript_rdev (s : State) (ms : List HostMove) : (s.setScript ms).rdev = s.rdev := rfl
@[simp] theorem State.setScript_rcmd (s : State) (ms : List HostMove) : (s.setScript ms).rcmd = s.rcmd := rfl
@[simp] theorem State.setScript_rrsv (s : State) (ms : List HostMove) : (s.setScript ms).rrsv = s.rrsv := rfl
@[simp] theorem State.setScript_inBuf (s : State) (ms : List HostMove) : (s.setScript ms).inBuf = s.inBuf := rfl
@[simp] theorem State.setScript_outBuf (s : State) (ms : List HostMove) : (s.setScript ms).outBuf = s.outBuf := rfl
@[simp] theorem State.setScript_draws (s : State) (ms : List HostMove) : (s.setScript ms).draws = s.draws := rfl
@[simp] theorem State.setScript_script (s : State) (ms : List HostMove) : (s.setScript ms).script = ms := rfl
@[simp] theorem State.setScript_observed (s : State) (ms : List HostMove) : (s.setScript ms).observed = s.observed := rfl
@[simp] theorem State.setScript_readIn (s : State) (ms : List HostMove) (j : Nat) : (s.setScript ms).readIn j = s.readIn j := rfl
@[simp] theorem State.setScript_readOut (s : State) (ms : List HostMove) (j : Nat) : (s.setScript ms).readOut j = s.readOut j := rfl
@[simp] theorem State.setScript_inSeq (s : State) (ms : List HostMove) (lo len : Nat) : (s.setScript ms).inSeq lo len = s.inSeq lo len := rfl

/-! ### observe -/

@[simp] theorem State.observe_status (s : State) (v : Byte) : (s.observe v).status = s.status := rfl
@[simp] theorem State.observe_crc (s : State) (v : Byte) : (s.observe v).crc = s.crc := rfl
@[simp] theorem State.observe_dev (s : State) (v : Byte) : (s.observe v).dev = s.dev := rfl
@[simp] theorem State.observe_cmd (s : State) (v : Byte) : (s.observe v).cmd = s.cmd := rfl
@[simp] theorem State.observe_inLen (s : State) (v : Byte) : (s.observe v).inLen = s.inLen := rfl
@[simp] theorem State.observe_outLen (s : State) (v : Byte) : (s.observe v).outLen = s.outLen := rfl
@[simp] theorem State.observe_rdev (s : State) (v : Byte) : (s.observe v).rdev = s.rdev := rfl
@[simp] theorem State.observe_rcmd (s : State) (v : Byte) : (s.observe v).rcmd = s.rcmd := rfl
@[simp] theorem State.observe_rrsv (s : State) (v : Byte) : (s.observe v).rrsv = s.rrsv := rfl
@[simp] theorem State.observe_inBuf (s : State) (v : Byte) : (s.observe v).inBuf = s.inBuf := rfl
@[simp] theorem State.observe_outBuf (s : State) (v : Byte) : (s.observe v).outBuf = s.outBuf := rfl
@[simp] theorem State.observe_draws (s : State) (v : Byte) : (s.observe v).draws = s.draws := rfl
@[simp] theorem State.observe_script (s : State) (v : Byte) : (s.observe v).script = s.script := rfl
@[simp] theorem State.observe_observed (s : State) (v : Byte) : (s.observe v).observed = s.observed ++ [v] := rfl
@[simp] theorem State.observe_readIn (s : State) (v : Byte) (j : Nat) : (s.observe v).readIn j = s.readIn j := rfl
@[simp] theorem State.observe_readOut (s : State) (v : Byte) (j : Nat) : (s.observe v).readOut j = s.readOut j := rfl
@[simp] theorem State.observe_inSeq (s : State) (v : Byte) (lo len : Nat) : (s.observe v).inSeq lo len = s.inSeq lo len := rfl

end Sys2Proof.Machine
end

