-- ==== Sys2Proof/Laws/Memory.lean ====
section
/-! SUPPORT. The laws of a buffer: what a read gives after a write, and that every write keeps the canonical form. -/

namespace Sys2Proof.Machine

@[simp] theorem Memory.lookup_nil (a : Nat) : Memory.lookup [] a = none := rfl

theorem Memory.lookup_cons (b : Nat) (w : Byte) (m : Memory) (a : Nat) :
    Memory.lookup ((b, w) :: m) a = if a = b then some w else Memory.lookup m a := rfl

/-- Read after write: the written index gives the byte written, every other index what it gave before. -/
theorem Memory.lookup_write (m : Memory) (a : Nat) (v : Byte) (b : Nat) :
    (m.write a v).lookup b = if b = a then some v else m.lookup b := by
  induction m with
  | nil => simp [Memory.write, Memory.lookup]
  | cons c m ih =>
    obtain ⟨d, w⟩ := c
    rw [Memory.write]
    split_ifs <;> simp_all [Memory.lookup]

/-- Read after writing a sequence: inside it the sequence's byte, outside it what was there before. -/
theorem Memory.lookup_writeSeq (vs : List Byte) (m : Memory) (a b : Nat) :
    (m.writeSeq a vs).lookup b = if a ≤ b ∧ b < a + vs.length then vs[b - a]? else m.lookup b := by
  induction vs generalizing m a with
  | nil =>
    simp [Memory.writeSeq]
  | cons v vs ih =>
    rw [Memory.writeSeq, ih, Memory.lookup_write]
    rcases Nat.lt_trichotomy b a with h | rfl | h
    · rw [if_neg (by omega), if_neg (by omega), if_neg (by omega)]
    · rw [if_neg (by omega), if_pos rfl, if_pos (by simp)]; simp
    · obtain ⟨k, rfl⟩ : ∃ k, b = a + 1 + k := ⟨b - a - 1, by omega⟩
      rw [if_neg (by omega : ¬ a + 1 + k = a)]
      have e : a + 1 + k - a = k + 1 := by omega
      have e' : a + 1 + k - (a + 1) = k := by omega
      simp only [e, e', List.getElem?_cons_succ, List.length_cons]
      by_cases hk : k < vs.length
      · rw [if_pos (by omega), if_pos (by omega)]
      · rw [if_neg (by omega), if_neg (by omega)]

theorem Memory.mem_write {m : Memory} {a : Nat} {v : Byte} {c : Host.Cell} (h : c ∈ m.write a v) :
    c = (a, v) ∨ c ∈ m := by
  induction m with
  | nil => simpa [Memory.write] using h
  | cons d m ih =>
    obtain ⟨b, w⟩ := d
    rw [Memory.write] at h
    split_ifs at h with h1 h2 <;> simp only [List.mem_cons] at h ⊢
    · tauto
    · tauto
    · rcases h with h | h
      · exact .inr (.inl h)
      · exact (ih h).imp_right .inr

/-- A write inside the buffer keeps the canonical form. -/
theorem Memory.write_wf {m : Memory} {a : Nat} {v : Byte} (hm : m.wf) (ha : a < Config.bufCells) :
    (m.write a v).wf := by
  refine ⟨?_, fun c hc => ?_⟩
  · have hp := hm.1
    clear hm ha
    induction m with
    | nil => simp [Memory.write]
    | cons d m ih =>
      obtain ⟨b, w⟩ := d
      rw [List.pairwise_cons] at hp
      rw [Memory.write]
      split_ifs with h1 h2
      · refine List.pairwise_cons.2 ⟨fun c hc => ?_, List.pairwise_cons.2 hp⟩
        rcases List.mem_cons.1 hc with rfl | hc
        · exact h1
        · exact h1.trans (hp.1 c hc)
      · subst h2
        exact List.pairwise_cons.2 hp
      · refine List.pairwise_cons.2 ⟨fun c hc => ?_, ih hp.2⟩
        rcases Memory.mem_write hc with rfl | hc
        · show b < a
          omega
        · exact hp.1 c hc
  · rcases Memory.mem_write hc with rfl | hc
    · exact ha
    · exact hm.2 c hc

/-- Writing a sequence inside the buffer keeps the canonical form. -/
theorem Memory.writeSeq_wf (vs : List Byte) {m : Memory} {a : Nat} (hm : m.wf)
    (ha : a + vs.length ≤ Config.bufCells) : (m.writeSeq a vs).wf := by
  induction vs generalizing m a with
  | nil => exact hm
  | cons v vs ih =>
    simp only [List.length_cons] at ha
    exact ih (Memory.write_wf hm (by omega)) (by omega)

theorem Memory.nil_wf : Memory.wf [] := by simp [Memory.wf]

/-- A cell of `IN` after a host write of `IN`. -/
@[simp] theorem State.writeIn_readIn (s : State) (i : Nat) (v : Byte) (j : Nat) :
    (s.writeIn i v).readIn j = if j = i then v else s.readIn j := by
  unfold State.readIn State.writeIn
  rw [Memory.lookup_write]
  split_ifs <;> rfl

/-- A cell of `OUT` after a result was written from `OUT[0]` on. -/
@[simp] theorem State.writeOut_readOut (s : State) (vs : List Byte) (j : Nat) :
    (s.writeOut vs).readOut j = if h : j < vs.length then vs[j] else s.readOut j := by
  unfold State.readOut State.writeOut
  rw [Memory.lookup_writeSeq]
  by_cases h : j < vs.length <;> simp [h]

end Sys2Proof.Machine
end

