-- ==== Sys2Proof/Laws/Ops.lean ====
section
/-! SUPPORT. What each shared operation can do, said once: the status word, the register port, the error response, the
reset, the operand sequences. -/

namespace Sys2Proof.Machine

/-! ### The status word -/

@[simp] theorem errField_statusWord (e : ErrKind) : errField (statusWord e) = e.code := by cases e <;> decide

@[simp] theorem reservedField_statusWord (e : ErrKind) : reservedField (statusWord e) = 0#5 := by cases e <;> decide

theorem statusLegal_statusWord (e : ErrKind) : statusLegal (statusWord e) := by cases e <;> decide

@[simp] theorem readStatus_statusWord (e : ErrKind) : readStatus (statusWord e) = statusWord e := by
  cases e <;> decide

/-- The codes of two kinds are equal only for one kind (93_implementation_defined.md V3). -/
theorem ErrKind.code_injective : Function.Injective ErrKind.code := by
  intro a b h
  cases a <;> cases b <;> first | rfl | exact absurd h (by decide)

/-! ### The register port -/

@[simp] theorem regOfNumber_number (r : RegName) : regOfNumber r.number = some r := by cases r <;> rfl

/-- Every register number names its one register, or none. -/
theorem regOfNumber_eq_some {k : RegNum} {r : RegName} : regOfNumber k = some r ↔ k = r.number := by
  revert k r
  intro k r
  constructor
  · intro h
    revert h
    revert k
    cases r <;> decide
  · rintro rfl
    exact regOfNumber_number r

/-- A write through the register port does nothing, or writes one of the three writable registers. -/
theorem writePort_cases (s : State) (k : RegNum) (v : Byte) :
    (k = RegName.dev.number ∧ s.writePort k v = s.setDev v) ∨
      (k = RegName.cmd.number ∧ s.writePort k v = s.setCmd v) ∨
      (k = RegName.inLen.number ∧ s.writePort k v = s.setInLen v) ∨
      (k ≠ RegName.dev.number ∧ k ≠ RegName.cmd.number ∧ k ≠ RegName.inLen.number ∧ s.writePort k v = s) := by
  unfold State.writePort
  cases h : regOfNumber k with
  | none =>
    refine .inr (.inr (.inr ⟨?_, ?_, ?_, rfl⟩)) <;>
    · rintro rfl
      simp at h
  | some r =>
    obtain rfl := regOfNumber_eq_some.1 h
    cases r <;> first
      | exact .inl ⟨rfl, rfl⟩
      | exact .inr (.inl ⟨rfl, rfl⟩)
      | exact .inr (.inr (.inl ⟨rfl, rfl⟩))
      | exact .inr (.inr (.inr ⟨by decide, by decide, by decide, rfl⟩))

/-! ### Errors and reset -/

/-- All that the error response does (60_exceptions.md R113). -/
theorem raise_eq (e : ErrKind) (s : State) : raise e s = { s with status := statusWord e, outLen := 0x00#8 } := rfl

/-- All that an illegal word does (60_exceptions.md R112). -/
theorem illegalOp_eq (s : State) : illegalOp s = { s with status := statusWord .illegalOp } := rfl

/-- All that a reset leaves (70_reset_and_hazards.md R130). -/
theorem resetBlock_eq (s : State) :
    resetBlock s = { State.reset with draws := s.draws + 1, script := s.script, observed := s.observed } := rfl

/-! ### Operand sequences -/

@[simp] theorem zeros_length (k : Nat) : (zeros k).length = k := by simp [zeros]

@[simp] theorem State.inSeq_length (s : State) (lo len : Nat) : (s.inSeq lo len).length = len := by
  simp [State.inSeq]

@[simp] theorem State.inSeq_getElem (s : State) (lo len i : Nat) (h : i < (s.inSeq lo len).length) :
    (s.inSeq lo len)[i] = s.readIn (lo + i) := by
  simp [State.inSeq]

@[simp] theorem State.operandSeq_length (s : State) : s.operandSeq.length = s.inLen.toNat :=
  State.inSeq_length s 0 _

@[simp] theorem State.operandSeq_getElem (s : State) (i : Nat) (h : i < s.operandSeq.length) :
    s.operandSeq[i] = s.readIn i := by
  simp [State.operandSeq]

@[simp] theorem State.outSeq_length (s : State) (lo len : Nat) : (s.outSeq lo len).length = len := by
  simp [State.outSeq]

@[simp] theorem State.outSeq_getElem (s : State) (lo len i : Nat) (h : i < (s.outSeq lo len).length) :
    (s.outSeq lo len)[i] = s.readOut (lo + i) := by
  simp [State.outSeq]

theorem State.inSeq_zero (s : State) (n : Nat) : s.inSeq 0 n = (List.range n).map s.readIn := by
  simp [State.inSeq, List.range_eq_range']

theorem State.outSeq_zero (s : State) (n : Nat) : s.outSeq 0 n = (List.range n).map s.readOut := by
  simp [State.outSeq, List.range_eq_range']

/-- Sequences of states that read `IN` alike are alike. -/
theorem State.inSeq_congr {s t : State} {lo len : Nat} (h : ∀ i < len, t.readIn (lo + i) = s.readIn (lo + i)) :
    t.inSeq lo len = s.inSeq lo len := by
  apply List.ext_getElem
  · simp
  · intro i h1 h2
    simpa using h i (by simpa using h1)

end Sys2Proof.Machine
end

