-- ==== Sys2Proof/Laws/Exec.lean ====
section
/-! SUPPORT. The outcomes of the operations that have more than one, each reached by its own test, and how a run of
moves and a step unfold. -/

namespace Sys2Proof.Machine

/-! ### The operations with several outcomes -/

/-- The three ways DECODE can end (41_frame_codec.md R95): too short, mismatch, success. -/
theorem execDecode_cases (s : State) :
    (s.inLen.toNat < Config.minDecodeLen ∧ execDecode s = .next (raise .frameTooShort s)) ∨
      (Config.minDecodeLen ≤ s.inLen.toNat ∧
        crc8 (s.inSeq 0 (s.inLen.toNat - 1)) ≠ s.readIn (s.inLen.toNat - 1) ∧
        execDecode s =
          .next (raise .checksumMismatch (s.setCrc (crc8 (s.inSeq 0 (s.inLen.toNat - 1)))))) ∨
      (Config.minDecodeLen ≤ s.inLen.toNat ∧
        crc8 (s.inSeq 0 (s.inLen.toNat - 1)) = s.readIn (s.inLen.toNat - 1) ∧
        execDecode s = .next
          (((((s.setCrc (crc8 (s.inSeq 0 (s.inLen.toNat - 1)))).setHeader (s.readIn 0) (s.readIn 1)
            (s.readIn 2)).writeOut (s.inSeq Config.hdrLen (s.inLen.toNat - 4))).setOutLen
            (BitVec.ofNat 8 (s.inLen.toNat - 4))).setErr .ok)) := by
  unfold execDecode
  dsimp only
  split_ifs with h1 h2
  · exact .inl ⟨h1, rfl⟩
  · exact .inr (.inl ⟨Nat.le_of_not_lt h1, h2, rfl⟩)
  · exact .inr (.inr ⟨Nat.le_of_not_lt h1, not_not.1 h2, rfl⟩)

/-- The two ways ENCODE can end (41_frame_codec.md R91): too long, success. -/
theorem execEncode_cases (s : State) :
    (Config.payloadLen < s.inLen.toNat ∧ execEncode s = .next (raise .payloadTooLong s)) ∨
      (s.inLen.toNat ≤ Config.payloadLen ∧ ∃ h : List Byte,
        h = [s.dev, s.cmd, 0x00#8] ++ s.inSeq 0 s.inLen.toNat ++ zeros (Config.payloadLen - s.inLen.toNat) ∧
        h.length = 19 ∧
        execEncode s = .next ((((s.writeOut (h ++ [crc8 h])).setOutLen 20#8).setCrc (crc8 h)).setErr .ok)) := by
  unfold execEncode
  dsimp only
  split_ifs with h1
  · exact .inl ⟨h1, rfl⟩
  · refine .inr ⟨Nat.le_of_not_lt h1, _, rfl, ?_, rfl⟩
    simp only [Config.payloadLen, List.length_append, List.length_cons, List.length_nil, State.inSeq_length,
      zeros_length] at h1 ⊢
    omega

/-! ### Runs and steps -/

@[simp] theorem runMoves_nil (s : State) : runMoves [] s = .next s := rfl

/-- A run goes on from where its first move left. -/
theorem runMoves_cons_of_next {m : HostMove} {ms : List HostMove} {s t : State} (h : doMove m s = .next t) :
    runMoves (m :: ms) s = runMoves ms t := by
  simp [runMoves, h]

/-- A run of a longer sequence goes on from where the first part left. -/
theorem runMoves_append_of_next {ms ns : List HostMove} {s t : State} (h : runMoves ms s = .next t) :
    runMoves (ms ++ ns) s = runMoves ns t := by
  induction ms generalizing s with
  | nil =>
    obtain rfl : s = t := by simpa using h
    rfl
  | cons m ms ih =>
    cases hm : doMove m s with
    | next u =>
      rw [runMoves_cons_of_next hm] at h
      rw [List.cons_append, runMoves_cons_of_next hm, ih h]
    | fault r => cases r
    | refused r => simp [runMoves, hm] at h

/-- One step is one move of the host. -/
theorem step_of_script {s : State} {m : HostMove} {ms : List HostMove} (h : s.script = m :: ms) :
    step s = doMove m (s.setScript ms) := by
  simp [step, hostStep, h]

/-- With no move left, a step changes nothing. -/
theorem step_of_empty {s : State} (h : s.script = []) : step s = .next s := by
  simp [step, hostStep, h]

end Sys2Proof.Machine
end

