-- ==== Sys2Proof/Laws/PerInstr.lean ====
section
/-! SUPPORT. Statements made per instruction, one lemma per constructor of Instr. -/

namespace Sys2Proof.Laws.EncodesLegal

/-- The instruction is well formed and its one word is a legal command word whose `opc` is that of its row
(30_encoding.md R47). -/
def Statement (i : Instr) : Prop :=
  i.wellFormed = true ∧ legalWord (encode i) = true ∧
    opcField (encode i) = match i with
      | .crcClr => 0x01#8
      | .crcUpd _ => 0x02#8
      | .cksum => 0x03#8
      | .encode => 0x04#8
      | .decode => 0x05#8

theorem crcClr : Statement .crcClr := ⟨rfl, by decide, by decide⟩

theorem crcUpd (imm8 : Byte) : Statement (.crcUpd imm8) := by
  refine ⟨rfl, ?_, ?_⟩
  · revert imm8
    decide
  · revert imm8
    decide

theorem cksum : Statement .cksum := ⟨rfl, by decide, by decide⟩

theorem encode : Statement .encode := ⟨rfl, by decide, by decide⟩

theorem decode : Statement .decode := ⟨rfl, by decide, by decide⟩

end Sys2Proof.Laws.EncodesLegal
end

