-- ==== Sys2Proof/Tests/Slice0.lean ====
section
/-! SUPPORT. The model's own tests: the ill-formed words, words written out from the spec's encoding, the vectors of
95_test_vectors.md (its rows K, E, DV), and for every statement with hypotheses a witness that meets them. -/

open Sys2Proof Sys2Proof.Machine Sys2Proof.Claims

namespace Sys2Proof.Tests

/-- The next state of an outcome. -/
def after : Host.Outcome State Fault Refusal → Option State
  | .next s => some s
  | .fault _ => none
  | .refused _ => none

/-- Bytes from numerals. -/
def bytes (ns : List Nat) : List Byte := ns.map (BitVec.ofNat 8)

/-- Reset, then an operand sequence loaded. -/
def loaded (ns : List Nat) : State :=
  { State.reset with inLen := BitVec.ofNat 8 ns.length, inBuf := Memory.writeSeq [] 0 (bytes ns) }

/-- What an operation leaves of a register. -/
def reg (i : Instr) (r : RegName) (s : State) : Option Byte := (after (exec i s)).map fun t => t.readReg r

/-- The result sequence an operation leaves. -/
def result (i : Instr) (s : State) : Option (List Byte) := (after (exec i s)).map State.resultSeq

/-! ### Well-formedness and decoding (30_encoding.md R47, R48; the decoder rows of 95_test_vectors.md section 2.5) -/

theorem test_illformed_words_refused :
    [0x0000, 0x0001, 0x0101, 0x0380, 0x0401, 0x05FF, 0x0600, 0xFFFF, 0x8100].all
      (fun n => legalWord (BitVec.ofNat 16 n) == false) = true := by decide

theorem test_wellformed_words_accepted :
    [0x0100, 0x0200, 0x02FF, 0x0300, 0x0400, 0x0500].all (fun n => legalWord (BitVec.ofNat 16 n)) = true := by
  decide

theorem test_instructions_wellformed :
    [Instr.crcClr, .crcUpd 0xFF#8, .cksum, .encode, .decode].all Instr.wellFormed = true := by decide

theorem test_decode_crcClr : decode 0b0000000100000000#16 = .ok .crcClr := by decide
theorem test_decode_crcUpd : decode 0b0000001010100101#16 = .ok (.crcUpd 0xA5#8) := by decide
theorem test_decode_cksum : decode 0b0000001100000000#16 = .ok .cksum := by decide
theorem test_decode_encode : decode 0b0000010000000000#16 = .ok .encode := by decide
theorem test_decode_decode : decode 0b0000010100000000#16 = .ok .decode := by decide

theorem test_decode_illegal :
    [0x0101, 0x0380, 0x0401, 0x05FF].map (fun n => decode (BitVec.ofNat 16 n)) =
        List.replicate 4 (.error .nonzeroImm8) ∧
      [0x0000, 0x0001, 0x0600, 0xFFFF, 0x8100].map (fun n => decode (BitVec.ofNat 16 n)) =
        List.replicate 5 (.error .reservedOpc) := by decide

theorem test_decodeTableWord : decodeTableWord 16 0x02FF = some (.crcUpd 0xFF#8) ∧ decodeTableWord 16 0x0600 = none := by
  decide

theorem test_withFetchWord_runs :
    after (step (State.reset.withFetchWord 16 0x0231)) = after (exec (.crcUpd 0x31#8) State.reset) := by decide

theorem test_withFetchWord_illegal :
    after (step (State.reset.withFetchWord 16 0x0000)) = some { State.reset with status := 0x04#8 } := by decide

/-! ### The functions (95_test_vectors.md sections 2.1 to 2.4) -/

theorem test_crcBit :
    [crcBit 0x40#8 false, crcBit 0x40#8 true, crcBit 0x7F#8 false, crcBit 0x7F#8 true, crcBit 0x83#8 false,
      crcBit 0x83#8 true] = [0x80#8, 0x87#8, 0xFE#8, 0xF9#8, 0x01#8, 0x06#8] := by decide

theorem test_crcByte : [crcByte 0x07#8 0x31#8, crcByte 0xA5#8 0x5A#8] = [0x82#8, 0xF3#8] := by decide

theorem test_crc8 :
    [crc8 (bytes [0xF4]), crc8 (bytes [0xFF, 0xFF, 0xFF, 0xFF]),
      crc8 (bytes [0x31, 0x32, 0x33, 0x34, 0x35, 0x36, 0x37, 0x38, 0x39])] = [0xC2#8, 0xDE#8, 0xF4#8] := by decide +kernel

theorem test_crcByte_table : (List.range 256).map (fun x => (crcByte 0x00#8 (BitVec.ofNat 8 x)).toNat) =
    ([0x00, 0x07, 0x0E, 0x09, 0x1C, 0x1B, 0x12, 0x15, 0x38, 0x3F, 0x36, 0x31, 0x24, 0x23, 0x2A, 0x2D]
    ++ [0x70, 0x77, 0x7E, 0x79, 0x6C, 0x6B, 0x62, 0x65, 0x48, 0x4F, 0x46, 0x41, 0x54, 0x53, 0x5A, 0x5D]
    ++ [0xE0, 0xE7, 0xEE, 0xE9, 0xFC, 0xFB, 0xF2, 0xF5, 0xD8, 0xDF, 0xD6, 0xD1, 0xC4, 0xC3, 0xCA, 0xCD]
    ++ [0x90, 0x97, 0x9E, 0x99, 0x8C, 0x8B, 0x82, 0x85, 0xA8, 0xAF, 0xA6, 0xA1, 0xB4, 0xB3, 0xBA, 0xBD]
    ++ [0xC7, 0xC0, 0xC9, 0xCE, 0xDB, 0xDC, 0xD5, 0xD2, 0xFF, 0xF8, 0xF1, 0xF6, 0xE3, 0xE4, 0xED, 0xEA]
    ++ [0xB7, 0xB0, 0xB9, 0xBE, 0xAB, 0xAC, 0xA5, 0xA2, 0x8F, 0x88, 0x81, 0x86, 0x93, 0x94, 0x9D, 0x9A]
    ++ [0x27, 0x20, 0x29, 0x2E, 0x3B, 0x3C, 0x35, 0x32, 0x1F, 0x18, 0x11, 0x16, 0x03, 0x04, 0x0D, 0x0A]
    ++ [0x57, 0x50, 0x59, 0x5E, 0x4B, 0x4C, 0x45, 0x42, 0x6F, 0x68, 0x61, 0x66, 0x73, 0x74, 0x7D, 0x7A]
    ++ [0x89, 0x8E, 0x87, 0x80, 0x95, 0x92, 0x9B, 0x9C, 0xB1, 0xB6, 0xBF, 0xB8, 0xAD, 0xAA, 0xA3, 0xA4]
    ++ [0xF9, 0xFE, 0xF7, 0xF0, 0xE5, 0xE2, 0xEB, 0xEC, 0xC1, 0xC6, 0xCF, 0xC8, 0xDD, 0xDA, 0xD3, 0xD4]
    ++ [0x69, 0x6E, 0x67, 0x60, 0x75, 0x72, 0x7B, 0x7C, 0x51, 0x56, 0x5F, 0x58, 0x4D, 0x4A, 0x43, 0x44]
    ++ [0x19, 0x1E, 0x17, 0x10, 0x05, 0x02, 0x0B, 0x0C, 0x21, 0x26, 0x2F, 0x28, 0x3D, 0x3A, 0x33, 0x34]
    ++ [0x4E, 0x49, 0x40, 0x47, 0x52, 0x55, 0x5C, 0x5B, 0x76, 0x71, 0x78, 0x7F, 0x6A, 0x6D, 0x64, 0x63]
    ++ [0x3E, 0x39, 0x30, 0x37, 0x22, 0x25, 0x2C, 0x2B, 0x06, 0x01, 0x08, 0x0F, 0x1A, 0x1D, 0x14, 0x13]
    ++ [0xAE, 0xA9, 0xA0, 0xA7, 0xB2, 0xB5, 0xBC, 0xBB, 0x96, 0x91, 0x98, 0x9F, 0x8A, 0x8D, 0x84, 0x83]
    ++ [0xDE, 0xD9, 0xD0, 0xD7, 0xC2, 0xC5, 0xCC, 0xCB, 0xE6, 0xE1, 0xE8, 0xEF, 0xFA, 0xFD, 0xF4, 0xF3]) := by decide +kernel

theorem test_frameOf_seventeen : frameOf 0x01#8 0x04#8 (zeros 17) = .error .payloadTooLong := by decide

theorem test_parse_short : parse (bytes [0x01, 0x04, 0x00]) = .error .frameTooShort := by decide

/-! ### The operations (95_test_vectors.md section 2.5) -/

/-- Row K1. -/
theorem test_crcClr :
    after (exec .crcClr { State.reset with crc := 0xF4#8, status := 0x03#8 }) = some State.reset := by decide

/-- Rows K2 and K5. -/
theorem test_crcUpd :
    reg (.crcUpd 0x31#8) .crc State.reset = some 0x97#8 ∧
      reg (.crcUpd 0xA5#8) .crc { State.reset with crc := 0xA5#8 } = some 0x00#8 := by decide

/-- Rows K8 and K11. -/
theorem test_cksum :
    reg .cksum .crc (loaded [0x01, 0x04, 0x00]) = some 0x3F#8 ∧
      reg .cksum .crc { loaded [0xAA, 0xBB, 0xCC, 0xDD] with inLen := 1#8 } = some 0x5F#8 := by decide +kernel

/-- Row K7: the old `CRC` does not enter the sum. -/
theorem test_cksum_empty : reg .cksum .crc { State.reset with crc := 0x5A#8 } = some 0x00#8 := by decide

/-- Row E6: stale bytes after the payload do not leak into the padding. -/
theorem test_encode :
    result .encode { loaded [0xAA, 0x55, 0xEE, 0xEE] with dev := 0x63#8, cmd := 0x07#8, inLen := 2#8 } =
      some (bytes [0x63, 0x07, 0x00, 0xAA, 0x55, 0, 0, 0, 0, 0, 0, 0, 0, 0, 0, 0, 0, 0, 0, 0xF8]) := by decide +kernel

/-- Row E8: seventeen bytes raise `PayloadTooLong` and leave `CRC` alone. -/
theorem test_encode_too_long :
    reg .encode .status { loaded (List.replicate 17 0) with crc := 0x77#8 } = some 0x01#8 ∧
      reg .encode .crc { loaded (List.replicate 17 0) with crc := 0x77#8 } = some 0x77#8 := by decide

/-- Row DV13. -/
theorem test_decode :
    result .decode (loaded [0x0E, 0x00, 0x05, 0x55, 0x66, 0xEA]) = some (bytes [0x55, 0x66]) ∧
      [RegName.status, .crc, .rdev, .rcmd, .rrsv].map
        (fun r => reg .decode r (loaded [0x0E, 0x00, 0x05, 0x55, 0x66, 0xEA])) =
        [some 0x00#8, some 0xEA#8, some 0x0E#8, some 0x00#8, some 0x05#8] := by decide +kernel

/-- Rows DV11 and DV7: a mismatch writes `CRC`, a short frame does not. -/
theorem test_decode_errors :
    [RegName.status, .outLen, .crc, .rdev].map (fun r => reg .decode r (loaded [0x01, 0x04, 0x00, 0x09])) =
        [some 0x03#8, some 0x00#8, some 0x3F#8, some 0x00#8] ∧
      [RegName.status, .outLen, .crc].map
        (fun r => reg .decode r { loaded [0x01, 0x04, 0x00] with crc := 0x77#8, outLen := 9#8 }) =
        [some 0x02#8, some 0x00#8, some 0x77#8] := by decide +kernel

/-! ### Ports and scripts (95_test_vectors.md section 2.5; 30_encoding.md R60, R61) -/

theorem test_reserved_register : (State.reset.writePort 9#4 0xAA#8).readPort 9#4 = 0x00#8 := by decide

theorem test_readonly_register : (State.reset.writePort 1#4 0x55#8).readPort 1#4 = 0x00#8 := by decide

theorem test_last_cell :
    (after (doMove (.hwrin 0xFF#8 0x42#8) State.reset)).map (fun s => s.readIn 255) = some 0x42#8 := by decide

theorem test_line_write : parseLine "WR IN_LEN, 0x0E ; fourteen".toList = some (.move (.hwr 4#4 0x0E#8) none) := by
  decide

theorem test_line_read : parseLine "RD CRC -> 0xF4".toList = some (.move (.hrd 1#4) (some 0xF4#8)) := by decide

theorem test_line_command :
    parseLine "CRC.UPD 0x31".toList = some (.move (.hcmd 0x0231#16) none) ∧
      parseLine ".word 0x0600".toList = some (.move (.hcmd 0x0600#16) none) := by decide

theorem test_line_list : parseLine "ENC 0x63, 7, [0xAA, 85]".toList = some (.enc 0x63#8 7#8 [0xAA#8, 0x55#8]) := by
  decide

theorem test_line_refused :
    parseLine "WR CRC, 1".toList = none ∧ parseLine "RDIN 256".toList = none ∧ parseLine "LOAD [1 2]".toList = none := by
  decide

/-! ### Witnesses: for each statement with hypotheses, a concrete case that meets them -/

/-- A state whose `IN` and `OUT` hold a byte in cell 0. -/
def busy : State := { loaded [0x01] with outBuf := [(0, 0x55#8)], outLen := 7#8, crc := 0x77#8, rdev := 0x09#8 }

theorem witness_RegisterNumbersReadAndWrite :
    9 ≤ (9#4 : RegNum).toNat ∧ 9 ≤ (15#4 : RegNum).toNat ∧
      ∀ k ∈ [0#4, 1#4, 5#4, 15#4], k ≠ 2#4 ∧ k ≠ 3#4 ∧ k ≠ 4#4 := by decide

theorem witness_HostMovesOfTheTable :
    decode 0x0100#16 = .ok .crcClr ∧ decode 0x0500#16 = .ok .decode ∧ legalWord 0x0000#16 = false ∧
      legalWord 0xFFFF#16 = false ∧ 255 ≠ (0x00#8).toNat ∧
      ∀ k ∈ [0#4, 1#4, 5#4, 15#4], k ≠ 2#4 ∧ k ≠ 3#4 ∧ k ≠ 4#4 := by decide

/-- Each clause's premise is met by some move from `busy`. -/
theorem witness_OnlyTheListedWritersChangeState :
    (after (doMove (.hcmd 0x0100#16) busy)).map (fun t => t.crc != busy.crc) = some true ∧
      (after (doMove (.hwr 2#4 5#8) busy)).map (fun t => t.dev != busy.dev) = some true ∧
      (after (doMove (.hwr 3#4 5#8) busy)).map (fun t => t.cmd != busy.cmd) = some true ∧
      (after (doMove (.hwr 4#4 5#8) busy)).map (fun t => t.inLen != busy.inLen) = some true ∧
      (after (doMove (.hwrin 0#8 5#8) busy)).map (fun t => t.readIn 0 != busy.readIn 0) = some true ∧
      (after (doMove (.hcmd 0x0400#16) busy)).map (fun t => t.readOut 0 != busy.readOut 0) = some true ∧
      (after (doMove (.hcmd 0x0400#16) busy)).map (fun t => t.outLen != busy.outLen) = some true ∧
      (after (doMove (.hcmd 0x0500#16) { busy with inLen := 4#8, inBuf := (loaded [0, 0, 0, 0]).inBuf })).map
        (fun t => t.rdev != busy.rdev) = some true ∧
      (after (doMove (.hcmd 0x0000#16) busy)).map (fun t => t.status != busy.status) = some true := by decide +kernel

theorem witness_CellsAboveInLenNeverMatter :
    sameRegisters (loaded [0x01]) { loaded [0x01, 0x02] with inLen := 1#8 } ∧
      (∀ j < (loaded [0x01]).inLen.toNat,
        State.readIn { loaded [0x01, 0x02] with inLen := 1#8 } j = (loaded [0x01]).readIn j) ∧
      (∀ j, State.readOut { loaded [0x01, 0x02] with inLen := 1#8 } j = (loaded [0x01]).readOut j) ∧
      ∃ t, exec .cksum (loaded [0x01]) = .next t := by
  refine ⟨by unfold sameRegisters; decide, by decide, fun j => rfl, _, rfl⟩

theorem witness_CommandWordsKeepOperands :
    (∃ t, doMove (.hcmd 0x0400#16) busy = .next t) ∧ ∃ t, doMove (.hcmd 0x0000#16) busy = .next t :=
  ⟨⟨_, rfl⟩, _, rfl⟩

theorem witness_ChecksumOperationsFrame :
    (∃ t, exec .crcClr busy = .next t) ∧ (∃ t, exec (.crcUpd 0xFF#8) busy = .next t) ∧
      ∃ t, exec .cksum busy = .next t :=
  ⟨⟨_, rfl⟩, ⟨_, rfl⟩, _, rfl⟩

theorem witness_DecodeEncodeAgree :
    decode 0x02FF#16 = .ok (.crcUpd 0xFF#8) ∧ decode 0x0000#16 = .error .reservedOpc ∧
      decode 0x05FF#16 = .error .nonzeroImm8 := by decide

theorem witness_DeviceIdTable :
    (loaded (List.replicate 16 1)).inLen.toNat ≤ 16 ∧ (loaded [0x63, 0, 0, 0x78]).readIn 0 = 0x63#8 ∧
      4 ≤ (loaded [0x63, 0, 0, 0x78]).inLen.toNat ∧
      crc8 ((List.range 3).map (loaded [0x63, 0, 0, 0x78]).readIn) = (loaded [0x63, 0, 0, 0x78]).readIn 3 := by
  decide +kernel

theorem witness_ChecksumIsLinear : (bytes [0x01, 0x80]).length = (bytes [0xFF, 0x00]).length := by decide

theorem witness_OneByteCorruptionIsCaught :
    parse (zeros 4) = .ok ⟨0#8, 0#8, 0#8, []⟩ ∧ 0 < (zeros 4).length ∧ 3 < (zeros 4).length ∧
      0x01#8 ≠ byteAt (zeros 4) 0 ∧ 0xFF#8 ≠ byteAt (zeros 4) 3 := by decide +kernel

theorem witness_ShortBurstIsCaught :
    parse (zeros 4) = .ok ⟨0#8, 0#8, 0#8, []⟩ ∧
      (∀ q, (fun k => k == 24 || k == 31) q = true → 24 ≤ q ∧ q < 24 + 8) ∧
      ∃ q, (fun k => k == 24 || k == 31) q = true ∧ q < 8 * (zeros 4).length := by
  refine ⟨by decide +kernel, fun q hq => ?_, 31, by decide, by decide⟩
  simp at hq
  omega

theorem witness_OddDifferenceIsCaught :
    parse (zeros 4) = .ok ⟨0#8, 0#8, 0#8, []⟩ ∧
      (List.range (8 * (zeros 4).length)).countP (fun k => k == 0 || k == 9 || k == 31) % 2 = 1 := by decide +kernel

theorem witness_TwoBitsPassOnlyAMultipleOf127Apart :
    parse (zeros 20) = .ok ⟨0#8, 0#8, 0#8, zeros 16⟩ ∧ 32 < 159 ∧ 159 < 8 * (zeros 20).length ∧ (159 - 32) % 127 = 0 ∧
      (158 - 32) % 127 ≠ 0 ∧ 151 + 8 < 8 * (zeros 20).length := by decide +kernel

theorem witness_CrcUpdAbsorbsOneByte :
    State.reset.crc = 0x00#8 ∧ State.crc { State.reset with crc := 0x97#8 } = 0x97#8 := by decide

theorem witness_CksumSumsTheOperand :
    State.reset.inLen = 0x00#8 ∧ (∀ i < (loaded [0, 0]).inLen.toNat, (loaded [0, 0]).readIn i = 0x00#8) ∧
      (loaded [0x01, 0x04, 0x00]).inLen = 0x03#8 ∧ (loaded [0x01, 0x04, 0x00]).readIn 0 = 0x01#8 ∧
      (loaded [0x01, 0x04, 0x00]).readIn 1 = 0x04#8 ∧ (loaded [0x01, 0x04, 0x00]).readIn 2 = 0x00#8 := by decide

theorem witness_StreamingAndCksumAgree :
    (∃ ms, checksumMoves [] = some ms) ∧ (∃ ms, checksumMoves (bytes [0x31, 0x32]) = some ms) ∧
      (zeros 255).length ≤ 255 ∧ load (zeros 256) = none := by
  refine ⟨⟨_, rfl⟩, ⟨_, rfl⟩, by simp, ?_⟩
  simp [load, Config.maxSeqLen]

theorem witness_PaddingToSixteenBytes : (bytes []).length ≤ 16 ∧ (zeros 16).length ≤ 16 ∧ (zeros 16).length = 16 := by
  decide

theorem witness_FrameLayoutByteByByte : 16 < (zeros 17).length ∧ (zeros 16).length ≤ 16 ∧ (bytes []).length ≤ 16 := by
  decide

theorem witness_ParseTestsLengthThenChecksum :
    (zeros 3).length < 4 ∧
      (4 ≤ (bytes [1, 4, 0, 9]).length ∧ crc8 ((bytes [1, 4, 0, 9]).take 3) ≠ byteAt (bytes [1, 4, 0, 9]) 3) ∧
      (4 ≤ (bytes [1, 4, 0, 0x3F]).length ∧
        crc8 ((bytes [1, 4, 0, 0x3F]).take 3) = byteAt (bytes [1, 4, 0, 0x3F]) 3) := by decide +kernel

theorem witness_FrameRoundTrip :
    (zeros 16).length ≤ 16 ∧ (bytes []).length ≤ 16 ∧ (zeros 20).length = 20 ∧ byteAt (zeros 20) 2 = 0x00#8 ∧
      parse (zeros 20) = .ok ⟨0#8, 0#8, 0#8, zeros 16⟩ := by decide +kernel

theorem witness_AcceptanceIsZeroResidue : 4 ≤ (zeros 4).length := by decide

/-- The state of the rule's example (41_frame_codec.md R91). -/
def encodeExample : State :=
  { loaded [0x00, 0x00, 0x00, 0x64, 0x00, 0x00, 0x00, 0x9C] with dev := 0x01#8, cmd := 0x04#8 }

theorem witness_EncodeBuildsTheFrame :
    State.reset.inLen.toNat ≤ 16 ∧ (loaded (List.replicate 16 1)).inLen.toNat ≤ 16 ∧
      16 < (loaded (List.replicate 17 1)).inLen.toNat ∧ encodeExample.inLen = 8#8 ∧
      (List.range 8).map encodeExample.readIn = bytes [0x00, 0x00, 0x00, 0x64, 0x00, 0x00, 0x00, 0x9C] := by decide

/-- The frame of the rule's example (41_frame_codec.md R95). -/
def decodeExample : List Nat :=
  [0x01, 0x04, 0x00, 0x00, 0x00, 0x00, 0x64, 0x00, 0x00, 0x00, 0x9C, 0x00, 0x00, 0x00, 0x00, 0x00, 0x00, 0x00, 0x00,
    0xB6]

theorem witness_DecodeTakesApartTheFrame :
    (4 ≤ (loaded [1, 4, 0, 0x3F]).inLen.toNat ∧
        crc8 ((List.range 3).map (loaded [1, 4, 0, 0x3F]).readIn) = (loaded [1, 4, 0, 0x3F]).readIn 3) ∧
      (loaded [1, 4, 0]).inLen.toNat < 4 ∧
      (4 ≤ (loaded [1, 4, 0, 9]).inLen.toNat ∧
        crc8 ((List.range 3).map (loaded [1, 4, 0, 9]).readIn) ≠ (loaded [1, 4, 0, 9]).readIn 3) ∧
      (loaded decodeExample).inLen = 20#8 ∧
      (List.range 20).map (loaded decodeExample).readIn = bytes decodeExample := by decide +kernel

theorem witness_DecodeAfterEncodeGivesItBack :
    State.reset.inLen.toNat ≤ 16 ∧ (loaded (List.replicate 16 1)).inLen.toNat ≤ 16 := by decide

theorem witness_EncAndDecMeetTheFunctions :
    (∃ ms, encMoves 0x01#8 0x04#8 (zeros 17) = some ms) ∧ (∃ ms, decMoves (zeros 4) = some ms) ∧
      (zeros 255).length ≤ 255 := ⟨⟨_, rfl⟩, ⟨_, rfl⟩, by simp⟩

/-- Each of the four error codes is reported by some command word. -/
theorem witness_EachErrorExactlyWhen :
    (after (doMove (.hcmd 0x0400#16) (loaded (List.replicate 17 0)))).map (fun t => errField t.status) = some 1#3 ∧
      (after (doMove (.hcmd 0x0500#16) (loaded [0, 0, 0]))).map (fun t => errField t.status) = some 2#3 ∧
      (after (doMove (.hcmd 0x0500#16) (loaded [1, 4, 0, 9]))).map (fun t => errField t.status) = some 3#3 ∧
      (after (doMove (.hcmd 0xFFFF#16) State.reset)).map (fun t => errField t.status) = some 4#3 := by decide +kernel

theorem witness_IllegalWordOnlySetsErr : legalWord 0x0000#16 = false ∧ legalWord 0x0501#16 = false := by decide

/-- One raise of each clause, at the lengths where the clauses meet. -/
theorem witness_ErrorResponseIsPrecise :
    (after (exec .encode (loaded (List.replicate 17 0)))).map (fun t => decide (frameError t.status)) = some true ∧
      ((after (exec .decode (loaded [0, 0, 0]))).map (fun t => decide (frameError t.status)) = some true ∧
        (loaded [0, 0, 0]).inLen.toNat < 4) ∧
      (after (exec .decode (loaded [1, 4, 0, 9]))).map (fun t => decide (frameError t.status)) = some true ∧
        4 ≤ (loaded [1, 4, 0, 9]).inLen.toNat := by decide +kernel

theorem witness_ChecksumHostNeverSeesAnError :
    State.reset.succeeded ∧
      ∀ w, HostMove.hcmd w ∈ [.hcmd 0x0100#16, .hwr 4#4 0#8, .hcmd 0x02FF#16, .hcmd 0x0300#16, .hreset] →
        w = 0x0100#16 ∨ (∃ v : Byte, w = BitVec.ofNat 16 (0x0200 + v.toNat)) ∨ w = 0x0300#16 := by
  refine ⟨by decide, fun w hw => ?_⟩
  simp at hw
  rcases hw with rfl | rfl | rfl
  · exact .inl rfl
  · exact .inr (.inl ⟨0xFF#8, rfl⟩)
  · exact .inr (.inr rfl)

theorem witness_ResetZeroesRegistersAndCellsAreStable :
    (∃ t, doMove (.hwrin 0#8 5#8) busy = .next t) ∧ (HostMove.hwrin 0#8 5#8 ≠ .hreset) ∧
      (∀ j v, HostMove.hwrin 0#8 5#8 = .hwrin j v → j.toNat ≠ 1) ∧
      (HostMove.hwrin 0#8 5#8 ≠ .hcmd 0x0400#16) ∧ HostMove.hwrin 0#8 5#8 ≠ .hcmd 0x0500#16 := by
  refine ⟨⟨_, rfl⟩, by decide, ?_, by decide, by decide⟩
  intro j v h
  cases h
  decide

theorem witness_StepRunsTheCommandWord :
    (State.reset.withFetchWord 16 0x0300).script = [.hcmd 0x0300#16] ∧ decode 0x0300#16 = .ok .cksum ∧
      (State.reset.withFetchWord 16 0x0301).script = [.hcmd 0x0301#16] ∧
      decode 0x0301#16 = .error .nonzeroImm8 := by decide

theorem witness_StepKeepsTheInvariant : State.reset.Inv ∧ ∃ t, step State.reset = .next t := ⟨by decide, _, rfl⟩

end Sys2Proof.Tests
end

section
/-! PROOFS, 10_state.md: the register port (R18). A number either is the number of one of the nine registers, where
the port is that register's read and write, or is reserved. -/

namespace Sys2Proof.Machine

/-- The nine registers take the numbers 0 to 8. -/
theorem RegName.number_lt_nine (r : RegName) : r.number.toNat < 9 := by cases r <;> decide

theorem regOfNumber_eq_none_of_reserved {k : RegNum} (hk : 9 ≤ k.toNat) : regOfNumber k = none := by
  cases h : regOfNumber k with
  | none => rfl
  | some r =>
    obtain rfl := regOfNumber_eq_some.1 h
    exact absurd r.number_lt_nine (Nat.not_lt.2 hk)

@[simp] theorem State.readPort_number (s : State) (r : RegName) : s.readPort r.number = s.readReg r := by
  simp [State.readPort]

@[simp] theorem State.writePort_number (s : State) (r : RegName) (v : Byte) :
    s.writePort r.number v = s.writeReg r v := by
  simp [State.writePort]

theorem State.readPort_of_reserved (s : State) {k : RegNum} (hk : 9 ≤ k.toNat) : s.readPort k = 0x00#8 := by
  simp [State.readPort, regOfNumber_eq_none_of_reserved hk]

/-- A number that names none of the three writable registers, a reserved one included, writes nothing. -/
theorem State.writePort_of_not_writable (s : State) (v : Byte) {k : RegNum} (hdev : k ≠ RegName.dev.number)
    (hcmd : k ≠ RegName.cmd.number) (hlen : k ≠ RegName.inLen.number) : s.writePort k v = s := by
  obtain ⟨rfl, -⟩ | ⟨rfl, -⟩ | ⟨rfl, -⟩ | ⟨-, -, -, hkeep⟩ := writePort_cases s k v
  · exact absurd rfl hdev
  · exact absurd rfl hcmd
  · exact absurd rfl hlen
  · exact hkeep

/-- Reading bits 7:3 as zero is masking with `0x07` (10_state.md R17). -/
theorem readStatus_eq_and (status : Byte) : readStatus status = status &&& 0x07#8 := by
  have hmask : status.toNat &&& 7 = status.toNat % 8 := Nat.and_two_pow_sub_one_eq_mod status.toNat 3
  have hlow : status.toNat % 8 < 256 := by omega
  apply BitVec.eq_of_toNat_eq
  simp [readStatus, errField, hmask, Nat.mod_eq_of_lt hlow]

/-- Settles O1: numbers 0 to 8 are the registers' own numbers, the others are reserved, and `writePort_cases` leaves
only `DEV`, `CMD` and `IN_LEN` to be written. -/
theorem registerNumbersReadAndWrite : Obligations.RegisterNumbersReadAndWrite := by
  intro s v
  refine ⟨⟨?status, s.readPort_number .crc, s.readPort_number .dev, s.readPort_number .cmd,
    s.readPort_number .inLen, s.readPort_number .outLen, s.readPort_number .rdev, s.readPort_number .rcmd,
    s.readPort_number .rrsv⟩, fun _ => s.readPort_of_reserved, s.writePort_number .dev v,
    s.writePort_number .cmd v, s.writePort_number .inLen v, fun _ => s.writePort_of_not_writable v⟩
  case status =>
    calc
      s.readPort 0#4 = readStatus s.status := s.readPort_number .status
      _ = s.status &&& 0x07#8 := readStatus_eq_and s.status

end Sys2Proof.Machine
end

section
/-! PROOFS, 30_encoding.md: the fields of a command word (R45), the decoder and the encoder as inverses (R47), the
illegal words (R48). -/

namespace Sys2Proof

/-! ### Fields, in numbers (R45) -/

theorem opcField_toNat (w : CmdWord) : (opcField w).toNat = w.toNat / 256 := by
  have hw : w.toNat < 2 ^ 16 := w.isLt
  rw [opcField, BitVec.extractLsb'_toNat, Nat.shiftRight_eq_div_pow]
  omega

theorem imm8Field_toNat (w : CmdWord) : (imm8Field w).toNat = w.toNat % 256 := by
  simp [imm8Field]

theorem joinFields_toNat (opc imm8 : Byte) : (joinFields opc imm8).toNat = 256 * opc.toNat + imm8.toNat := by
  have hopc : opc.toNat < 256 := opc.isLt
  have himm : imm8.toNat < 2 ^ 8 := imm8.isLt
  have hhigh : (opc.setWidth 16 <<< 8).toNat = 2 ^ 8 * opc.toNat := by
    simp only [BitVec.toNat_shiftLeft, BitVec.toNat_setWidth, Nat.shiftLeft_eq]
    omega
  have hlow : (imm8.setWidth 16).toNat = imm8.toNat := BitVec.toNat_setWidth_of_le (by decide)
  rw [joinFields, BitVec.toNat_or, hhigh, hlow, ← Nat.two_pow_add_eq_or_of_lt himm]

@[simp] theorem opcField_joinFields (opc imm8 : Byte) : opcField (joinFields opc imm8) = opc := by
  apply BitVec.eq_of_toNat_eq
  rw [opcField_toNat, joinFields_toNat]
  omega

@[simp] theorem imm8Field_joinFields (opc imm8 : Byte) : imm8Field (joinFields opc imm8) = imm8 := by
  apply BitVec.eq_of_toNat_eq
  rw [imm8Field_toNat, joinFields_toNat]
  omega

/-- A command word is its two fields and nothing more. -/
theorem joinFields_fields (w : CmdWord) : joinFields (opcField w) (imm8Field w) = w := by
  apply BitVec.eq_of_toNat_eq
  rw [joinFields_toNat, opcField_toNat, imm8Field_toNat]
  omega

theorem joinFields_imm8Field {w : CmdWord} {opc : Byte} (hopc : (opcField w).toNat = opc.toNat) :
    joinFields opc (imm8Field w) = w := by
  rw [← BitVec.eq_of_toNat_eq hopc, joinFields_fields]

/-! ### Decoder and encoder (R47) -/

theorem formatZ_eq_ok {imm8 : Byte} {i j : Instr} : formatZ imm8 i = .ok j ↔ imm8 = 0x00#8 ∧ i = j := by
  unfold formatZ
  split_ifs with h <;> simp [h]

theorem decode_encode (i : Instr) : decode (encode i) = .ok i := by
  cases i <;> simp [decode, encode, formatZ_eq_ok]

/-- A word of format Z is known by its `opc`, because its `imm8` must be `0x00` (R46). -/
theorem encode_of_formatZ {w : CmdWord} {opc : Byte} {i j : Instr} (hopc : (opcField w).toNat = opc.toNat)
    (hi : encode i = joinFields opc 0x00#8) (h : formatZ (imm8Field w) i = .ok j) : encode j = w := by
  obtain ⟨himm, rfl⟩ := formatZ_eq_ok.1 h
  rw [hi, ← himm, joinFields_imm8Field hopc]

theorem encode_of_decode {w : CmdWord} {i : Instr} (h : decode w = .ok i) : encode i = w := by
  unfold decode at h
  dsimp only at h
  split at h
  next hopc => exact encode_of_formatZ (opc := 0x01#8) hopc rfl h
  next hopc =>
    cases h
    exact joinFields_imm8Field (opc := 0x02#8) hopc
  next hopc => exact encode_of_formatZ (opc := 0x03#8) hopc rfl h
  next hopc => exact encode_of_formatZ (opc := 0x04#8) hopc rfl h
  next hopc => exact encode_of_formatZ (opc := 0x05#8) hopc rfl h
  next => cases h

/-- The decoder's `ok` answers are the encoder read backwards. -/
theorem decode_eq_ok_iff {w : CmdWord} {i : Instr} : decode w = .ok i ↔ encode i = w :=
  ⟨encode_of_decode, fun h => h ▸ decode_encode i⟩

/-! ### Legal and illegal words (R47, R48) -/

theorem legalWord_iff_toNat (w : CmdWord) :
    legalWord w = true ↔ w.toNat = 0x0100 ∨ (0x0200 ≤ w.toNat ∧ w.toNat ≤ 0x02FF) ∨ w.toNat = 0x0300 ∨
      w.toNat = 0x0400 ∨ w.toNat = 0x0500 := by
  simp [legalWord, or_assoc]

theorem encodesLegal (i : Instr) : Laws.EncodesLegal.Statement i := by
  cases i with
  | crcClr => exact Laws.EncodesLegal.crcClr
  | crcUpd imm8 => exact Laws.EncodesLegal.crcUpd imm8
  | cksum => exact Laws.EncodesLegal.cksum
  | encode => exact Laws.EncodesLegal.encode
  | decode => exact Laws.EncodesLegal.decode

theorem legalWord_encode (i : Instr) : legalWord (encode i) = true := by
  obtain ⟨-, hlegal, -⟩ := encodesLegal i
  exact hlegal

/-- The one word of `CRC.UPD v` (R47). -/
theorem encode_crcUpd (v : Byte) : encode (.crcUpd v) = BitVec.ofNat 16 (0x0200 + v.toNat) := by
  apply BitVec.eq_of_toNat_eq
  have hv : v.toNat < 256 := v.isLt
  simp only [encode, joinFields_toNat, BitVec.toNat_ofNat]
  omega

/-- The words that R47 lists are the words of the instructions. -/
theorem legalWord_iff_encode (w : CmdWord) : legalWord w = true ↔ ∃ i, encode i = w := by
  constructor
  · intro h
    obtain h | ⟨hlo, hhi⟩ | h | h | h := (legalWord_iff_toNat w).1 h
    · exact ⟨.crcClr, BitVec.eq_of_toNat_eq h.symm⟩
    · have hopc : (opcField w).toNat = 0x02 := by
        rw [opcField_toNat]
        omega
      exact ⟨.crcUpd (imm8Field w), joinFields_imm8Field (opc := 0x02#8) hopc⟩
    · exact ⟨.cksum, BitVec.eq_of_toNat_eq h.symm⟩
    · exact ⟨.encode, BitVec.eq_of_toNat_eq h.symm⟩
    · exact ⟨.decode, BitVec.eq_of_toNat_eq h.symm⟩
  · rintro ⟨i, rfl⟩
    exact legalWord_encode i

theorem legalWord_iff_decode (w : CmdWord) : legalWord w = true ↔ ∃ i, decode w = .ok i := by
  simp only [legalWord_iff_encode, decode_eq_ok_iff]

theorem decode_error_iff_not_legalWord (w : CmdWord) : (∃ e, decode w = .error e) ↔ ¬ legalWord w = true := by
  rw [legalWord_iff_decode]
  cases decode w <;> simp

/-- The set R48 lists, by `opc` and `imm8`, is what R47's list leaves out. -/
theorem not_legalWord_iff_fields (w : CmdWord) :
    ¬ legalWord w = true ↔ w.toNat / 256 = 0x00 ∨ 0x06 ≤ w.toNat / 256 ∨
      ((w.toNat / 256 = 0x01 ∨ w.toNat / 256 = 0x03 ∨ w.toNat / 256 = 0x04 ∨ w.toNat / 256 = 0x05) ∧
        w.toNat % 256 ≠ 0x00) := by
  rw [legalWord_iff_toNat]
  omega

/-- The numbers of the legal words: 256 of `CRC.UPD` and one of each other operation. -/
def legalNumbers : Finset Nat := {0x0100, 0x0300, 0x0400, 0x0500} ∪ Finset.Icc 0x0200 0x02FF

theorem mem_legalNumbers (n : Nat) :
    n ∈ legalNumbers ↔ n < 65536 ∧ legalWord (BitVec.ofNat 16 n) = true := by
  rw [legalWord_iff_toNat, BitVec.toNat_ofNat]
  simp only [legalNumbers, Finset.mem_union, Finset.mem_insert, Finset.mem_singleton, Finset.mem_Icc]
  omega

theorem card_legalNumbers : legalNumbers.card = 260 := by
  have hdisj : Disjoint ({0x0100, 0x0300, 0x0400, 0x0500} : Finset Nat) (Finset.Icc 0x0200 0x02FF) := by
    simp
  rw [legalNumbers, Finset.card_union_of_disjoint hdisj, Nat.card_Icc]
  rfl

/-- There are 260 legal words (R47). -/
theorem countP_legalWord : (List.range 65536).countP (fun n => legalWord (BitVec.ofNat 16 n)) = 260 := by
  have hset : {n ∈ Finset.range 65536 | legalWord (BitVec.ofNat 16 n) = true} = legalNumbers := by
    ext n
    rw [Finset.mem_filter, Finset.mem_range, mem_legalNumbers]
  calc
    (List.range 65536).countP (fun n => legalWord (BitVec.ofNat 16 n))
      = Nat.count (fun n => legalWord (BitVec.ofNat 16 n) = true) 65536 := by
        simp only [Nat.count, Bool.decide_eq_true]
    _ = legalNumbers.card := by rw [Nat.count_eq_card_filter_range, hset]
    _ = 260 := card_legalNumbers

end Sys2Proof

namespace Sys2Proof.Machine

/-- An illegal word, of either kind, has the one effect of R112. -/
theorem doMove_hcmd_of_illegal {w : CmdWord} {e : Illegal} (h : decode w = .error e) (s : State) :
    doMove (.hcmd w) s = .next (illegalOp s) := by
  simp [doMove, doCommand, h]

/-- Settles O8: `decode_eq_ok_iff` gives both directions of the agreement, and the refused words are those that R47's
list leaves out. -/
theorem decodeEncodeAgree : Obligations.DecodeEncodeAgree := by
  refine ⟨decode_encode, fun _ _ => encode_of_decode, fun w => ?illegalSet, fun w e s h => ?effect⟩
  case illegalSet => exact (decode_error_iff_not_legalWord w).trans (not_legalWord_iff_fields w)
  case effect => exact doMove_hcmd_of_illegal h s

/-- Settles O7: each listed word is the encoding of its operation, and there are 260 of them. -/
theorem legalWordsSelectTheirOperation : Obligations.LegalWordsSelectTheirOperation :=
  ⟨decode_encode .crcClr, fun v => encode_crcUpd v ▸ decode_encode (.crcUpd v), decode_encode .cksum,
    decode_encode .encode, decode_encode .decode, legalWord_iff_decode, countP_legalWord⟩

end Sys2Proof.Machine
end

section
/-! PROOFS, 30_encoding.md R55: the device-id table, and the device-id byte in a frame. -/

namespace Sys2Proof.Machine

theorem deviceOfWire_deviceWire (d : DeviceId) : deviceOfWire (deviceWire d) = some d := by cases d <;> rfl

theorem deviceOfWire_eq_none_iff (b : Byte) :
    deviceOfWire b = none ↔ ∀ d ∈ deviceIds, (deviceWire d).toNat ≠ b.toNat := by
  simp [deviceOfWire, BitVec.toNat_eq]

/-- The 244 bytes without a name (R55). -/
theorem deviceOfWire_eq_none_iff_toNat (b : Byte) :
    deviceOfWire b = none ↔
      (6 ≤ b.toNat ∧ b.toNat ≤ 11) ∨ b.toNat = 15 ∨ b.toNat = 18 ∨ b.toNat = 19 ∨ 21 ≤ b.toNat := by
  rw [deviceOfWire_eq_none_iff]
  simp only [deviceIds, List.forall_mem_cons, List.not_mem_nil, false_implies, implies_true, and_true, deviceWire,
    BitVec.toNat_ofNat]
  omega

theorem statusWord_ok : statusWord .ok = 0x00#8 := rfl

/-- ENCODE of a payload that fits succeeds and puts `DEV`, whatever it is, in `OUT[0]` (41_frame_codec.md R91). -/
theorem exec_encode_carries_dev (s : State) (hlen : s.inLen.toNat ≤ Config.payloadLen) :
    ∃ t, exec .encode s = .next t ∧ t.status = 0x00#8 ∧ t.readOut 0 = s.dev := by
  obtain ⟨hlong, -⟩ | ⟨-, h, hframe, -, hexec⟩ := execEncode_cases s
  · exact absurd hlong (Nat.not_lt.2 hlen)
  · exact ⟨_, hexec, statusWord_ok, by simp [hframe]⟩

/-- DECODE of a long enough sequence with the right checksum succeeds and returns byte 0, whatever it is, in `RDEV`
(41_frame_codec.md R95). -/
theorem exec_decode_returns_first_byte (s : State) (hlen : Config.minDecodeLen ≤ s.inLen.toNat)
    (hsum : crc8 (s.inSeq 0 (s.inLen.toNat - 1)) = s.readIn (s.inLen.toNat - 1)) :
    ∃ t, exec .decode s = .next t ∧ t.status = 0x00#8 ∧ t.rdev = s.readIn 0 := by
  obtain ⟨hshort, -⟩ | ⟨-, hbad, -⟩ | ⟨-, -, hexec⟩ := execDecode_cases s
  · exact absurd hlen (Nat.not_le.2 hshort)
  · exact absurd hsum hbad
  · exact ⟨_, hexec, statusWord_ok, rfl⟩

/-- Settles O10: the table is read off `deviceWire`, and neither ENCODE nor DECODE looks the byte up. -/
theorem deviceIdTable : Obligations.DeviceIdTable := by
  refine ⟨by decide, deviceOfWire_deviceWire, deviceOfWire_eq_none_iff_toNat, fun b s hlen => ?encode,
    fun b s hfirst hlen hsum => ?decode⟩
  case encode => exact exec_encode_carries_dev { s with dev := b } hlen
  case decode =>
    rw [← State.inSeq_zero] at hsum
    exact hfirst ▸ exec_decode_returns_first_byte s hlen hsum

end Sys2Proof.Machine
end

section
/-! PROOFS, 40_checksum.md sections 1 and 3: the bit step and the byte step (R65, R66), the fold over a sequence (R67,
R68), and the operations CRC.CLR, CRC.UPD and CKSUM (R75 to R77). -/

open Sys2Proof.Claims

namespace Sys2Proof.Machine

/-! ### The bit step (R65) -/

theorem getLsbD_seven_eq_decide (r : Byte) : r.getLsbD 7 = decide (128 ≤ r.toNat) :=
  (BitVec.msb_eq_getLsbD_last r).symm.trans (BitVec.msb_eq_decide r)

/-- The top bit against the input bit decides between the shifted register and the shifted register against `POLY`. -/
theorem crcBit_eq (r : Byte) (b : Bool) : crcBit r b = if r.getLsbD 7 ^^ b then r <<< 1 ^^^ 0x07#8 else r <<< 1 := rfl

theorem crcBit_toNat (r : Byte) (b : Bool) :
    (crcBit r b).toNat =
      if (decide (128 ≤ r.toNat)) ^^ b then (2 * r.toNat % 256) ^^^ 7 else 2 * r.toNat % 256 := by
  have hshift : (r <<< 1).toNat = 2 * r.toNat % 256 := by
    simp [BitVec.toNat_shiftLeft, Nat.shiftLeft_eq, Nat.mul_comm]
  rw [crcBit_eq, getLsbD_seven_eq_decide]
  split_ifs
  · rw [BitVec.toNat_xor, hshift]
    rfl
  · exact hshift

/-- An input bit equal to the register's top bit only shifts. -/
theorem crcBit_top (r : Byte) : crcBit r (r.getLsbD 7) = r <<< 1 := by simp [crcBit_eq]

/-- A bit step masks what the growing register keeps: the two agree modulo 256. -/
theorem crcBit_ofNat (n : Nat) (b : Bool) : crcBit (BitVec.ofNat 8 n) b = BitVec.ofNat 8 (growingBit n b) := by
  have htop : (BitVec.ofNat 8 n).getLsbD 7 = (n / 128 % 2 == 1) := by
    rw [BitVec.getLsbD_ofNat, Nat.testBit_eq_decide_div_mod_eq]
    rfl
  have hshift : BitVec.ofNat 8 n <<< 1 = BitVec.ofNat 8 (2 * n) := by
    apply BitVec.eq_of_toNat_eq
    simp [Nat.shiftLeft_eq, Nat.mul_comm]
  rw [crcBit_eq, growingBit, htop, hshift]
  split_ifs
  · exact BitVec.ofNat_xor.symm
  · rfl

/-- Settles O11: `crcBit_toNat`, and the rule's six cases. -/
theorem crcBitStep : Obligations.CrcBitStep :=
  ⟨crcBit_toNat, by decide⟩

/-! ### The byte step (R66) -/

theorem crcByte_eq_foldl (r v : Byte) :
    crcByte r v = [7, 6, 5, 4, 3, 2, 1, 0].foldl (fun x i => crcBit x (v.getLsbD i)) r := rfl

/-- Reducing modulo 256 carries the growing register into the masked one at every bit, so one reduction at the end of
the byte is enough. -/
theorem crcByte_toNat (r v : Byte) :
    (crcByte r v).toNat =
      [7, 6, 5, 4, 3, 2, 1, 0].foldl (fun x i => growingBit x (v.getLsbD i)) r.toNat % 256 := by
  have hmask := List.foldl_hom (BitVec.ofNat 8) (g₁ := fun x i => growingBit x (v.getLsbD i))
    (g₂ := fun x i => crcBit x (v.getLsbD i)) (l := [7, 6, 5, 4, 3, 2, 1, 0]) (init := r.toNat)
    (fun n i => crcBit_ofNat n (v.getLsbD i))
  rw [BitVec.ofNat_toNat, BitVec.setWidth_eq, ← crcByte_eq_foldl] at hmask
  rw [hmask, BitVec.toNat_ofNat]

/-- The top bit of a register shifted `k` times is bit `7 - k` of the register, so an input equal to it only shifts. -/
theorem crcBit_shiftLeft (r : Byte) {i k : Nat} (h : i + k = 7) : crcBit (r <<< k) (r.getLsbD i) = r <<< (k + 1) := by
  have htop : (r <<< k).getLsbD 7 = r.getLsbD i := by
    obtain rfl : i = 7 - k := by omega
    have hk : ¬7 < k := by omega
    simp [BitVec.getLsbD_shiftLeft, hk, -BitVec.getLsbD_eq_getElem]
  rw [← htop, crcBit_top, BitVec.shiftLeft_add]

/-- A byte equal to the register brings the top bit at each of the eight steps, so the register is shifted out. -/
theorem crcByte_self (r : Byte) : crcByte r r = 0x00#8 := by
  have hrun : crcByte r r = r <<< 8 := by
    simp (disch := rfl) only [crcByte, crcBit_top, crcBit_shiftLeft]
  rw [hrun]
  exact BitVec.shiftLeft_eq_zero (Nat.le_refl 8)

/-- Settles O12: `crcByte` is the fold by its definition, `crcByte_toNat` is the growing register, the rest are the
rule's examples. -/
theorem crcByteTakesBitsMsbFirst : Obligations.CrcByteTakesBitsMsbFirst :=
  ⟨crcByte_eq_foldl, crcByte_toNat, by decide, by decide, by decide, crcByte_self 0xFF#8, by decide⟩

/-! ### The checksum of a sequence (R67, R68) -/

theorem crc8_nil : crc8 [] = 0x00#8 := rfl

theorem crc8_concat (s : List Byte) (v : Byte) : crc8 (s ++ [v]) = crcByte (crc8 s) v := by
  simp [crc8]

theorem crc8_zeros (k : Nat) : crc8 (zeros k) = 0x00#8 := by
  induction k with
  | zero => exact crc8_nil
  | succ k ih =>
    calc
      crc8 (zeros (k + 1)) = crc8 (zeros k ++ [0x00#8]) := by rw [zeros, List.replicate_succ', zeros]
      _ = crcByte (crc8 (zeros k)) 0x00#8 := crc8_concat _ _
      _ = 0x00#8 := by rw [ih, crcByte_self]

/-- The operand of R77's example, one running value after the other. -/
theorem crc8_sample : crc8 [0x01#8, 0x04#8, 0x00#8] = 0x3F#8 := by
  have hfirst : crcByte 0x00#8 0x01#8 = 0x07#8 := by decide
  have hsecond : crcByte 0x07#8 0x04#8 = 0x09#8 := by decide
  have hthird : crcByte 0x09#8 0x00#8 = 0x3F#8 := by decide
  simp only [crc8, Config.initCrc, List.foldl_cons, List.foldl_nil, hfirst, hsecond, hthird]

/-- Settles O13: the fold's two equations, and the rule's running values. -/
theorem checksumIsTheFold : Obligations.ChecksumIsTheFold :=
  ⟨crc8_nil, crc8_concat, by decide⟩

/-! ### The operations (R75 to R77) -/

theorem exec_crcClr (s : State) : exec .crcClr s = .next { s with crc := 0x00#8, status := 0x00#8 } := rfl

theorem exec_crcUpd (s : State) (v : Byte) :
    exec (.crcUpd v) s = .next { s with crc := crcByte s.crc v, status := 0x00#8 } := rfl

theorem exec_crcUpd_of_crc {s : State} {r v r' : Byte} (hbyte : crcByte r v = r') (hcrc : s.crc = r) :
    exec (.crcUpd v) s = .next { s with crc := r', status := 0x00#8 } := by
  rw [exec_crcUpd, hcrc, hbyte]

theorem exec_cksum (s : State) : exec .cksum s = .next { s with crc := crc8 s.operandSeq, status := 0x00#8 } := rfl

theorem State.operandSeq_eq_map (s : State) : s.operandSeq = (List.range s.inLen.toNat).map s.readIn :=
  s.inSeq_zero s.inLen.toNat

theorem State.operandSeq_eq_zeros {s : State} (h : ∀ i < s.inLen.toNat, s.readIn i = 0x00#8) :
    s.operandSeq = zeros s.inLen.toNat := by
  rw [s.operandSeq_eq_map, zeros, List.eq_replicate_iff]
  simpa using h

/-- A legal word does the operation it encodes. -/
theorem doMove_hcmd_encode (i : Instr) (s : State) : doMove (.hcmd (encode i)) s = exec i s := by
  simp [doMove, doCommand, decode_encode]

/-- One CRC.UPD per byte folds the bytes, of any number, into the running register. -/
theorem runMoves_crcUpds (bs : List Byte) (s : State) (hok : s.status = 0x00#8) :
    runMoves (bs.map fun b => .hcmd (encode (.crcUpd b))) s = .next { s with crc := bs.foldl crcByte s.crc } := by
  induction bs generalizing s with
  | nil => rfl
  | cons b bs ih =>
    have hfirst : doMove (.hcmd (encode (.crcUpd b))) s = .next { s with crc := crcByte s.crc b } := by
      rw [doMove_hcmd_encode, exec_crcUpd, ← hok]
    rw [List.map_cons, runMoves_cons_of_next hfirst]
    exact ih _ hok

theorem clearThenAbsorb_eq (bs : List Byte) :
    clearThenAbsorb bs = .hcmd (encode .crcClr) :: bs.map fun b => .hcmd (encode (.crcUpd b)) := by
  simp only [encode_crcUpd]
  rfl

/-- CRC.CLR and then one CRC.UPD per byte compute the checksum of the bytes (R76). -/
theorem runMoves_clearThenAbsorb (bs : List Byte) (s : State) :
    runMoves (clearThenAbsorb bs) s = .next { s with crc := crc8 bs, status := 0x00#8 } := by
  have hclear := (doMove_hcmd_encode .crcClr s).trans (exec_crcClr s)
  rw [clearThenAbsorb_eq, runMoves_cons_of_next hclear, runMoves_crcUpds bs _ rfl]
  rfl

/-- Settles O23: the word is the encoding of CRC.CLR, which completes in every state. -/
theorem crcClrClearsTheRegister : Obligations.CrcClrClearsTheRegister :=
  ⟨decode_encode .crcClr, exec_crcClr⟩

/-- Settles O24: `exec_crcUpd` is one byte, `runMoves_clearThenAbsorb` any number, and `crcByte_self` the corner case
of a byte equal to the register. -/
theorem crcUpdAbsorbsOneByte : Obligations.CrcUpdAbsorbsOneByte := by
  refine ⟨fun v => encode_crcUpd v ▸ decode_encode (.crcUpd v), exec_crcUpd, runMoves_clearThenAbsorb,
    fun s hzero => ?keeps, fun s => exec_crcUpd_of_crc (crcByte_self s.crc) rfl,
    fun _ => exec_crcUpd_of_crc (by decide), fun _ => exec_crcUpd_of_crc (by decide)⟩
  case keeps => rw [exec_crcUpd, hzero, crcByte_self, ← hzero]

/-- Settles O25: `exec_cksum` over the operand sequence in its several forms. -/
theorem cksumSumsTheOperand : Obligations.CksumSumsTheOperand := by
  refine ⟨decode_encode .cksum, fun s => ?sum, fun s hlen => ?empty, fun s hcells => ?allZero,
    fun s hlen h0 h1 h2 => ?threeBytes⟩
  case sum => rw [exec_cksum, s.operandSeq_eq_map]
  case empty =>
    have hseq : s.operandSeq = [] := by simp [s.operandSeq_eq_map, hlen]
    rw [exec_cksum, hseq, crc8_nil]
  case allZero => rw [exec_cksum, State.operandSeq_eq_zeros hcells, crc8_zeros]
  case threeBytes =>
    have hseq : s.operandSeq = [0x01#8, 0x04#8, 0x00#8] := by
      simp [s.operandSeq_eq_map, hlen, List.range_succ, h0, h1, h2]
    rw [exec_cksum, hseq, crc8_sample]

end Sys2Proof.Machine
end

section
/-! PROOFS, 41_frame_codec.md section 1: the functions `pad16` (R85), `frame_of` (R86) and `parse` (R87), each by the
bytes of its result. -/

namespace Sys2Proof.Machine

/-! ### The bytes of a sequence (00_scope.md R7) -/

theorem byteAt_of_lt {s : List Byte} {i : Nat} (h : i < s.length) : byteAt s i = s[i] :=
  List.getD_eq_getElem s 0x00#8 h

/-- Past its end a sequence reads as its own zero padding. -/
theorem byteAt_of_length_le {s : List Byte} {i : Nat} (h : s.length ≤ i) : byteAt s i = 0x00#8 :=
  List.getD_eq_default s 0x00#8 h

theorem byteAt_append_left {s : List Byte} {i : Nat} (u : List Byte) (h : i < s.length) :
    byteAt (s ++ u) i = byteAt s i :=
  List.getD_append s u 0x00#8 i h

theorem byteAt_append_right (s u : List Byte) (i : Nat) : byteAt (s ++ u) (s.length + i) = byteAt u i := by
  simp [byteAt, List.getElem?_append_right]

theorem byteAt_concat_length (s : List Byte) (v : Byte) : byteAt (s ++ [v]) s.length = v :=
  byteAt_append_right s [v] 0

theorem byteAt_take {n i : Nat} (s : List Byte) (h : i < n) : byteAt (s.take n) i = byteAt s i := by
  simp [byteAt, h]

theorem byteAt_drop (s : List Byte) (n i : Nat) : byteAt (s.drop n) i = byteAt s (n + i) := by
  simp [byteAt]

theorem byteAt_zeros (k i : Nat) : byteAt (zeros k) i = 0x00#8 := by
  rcases Nat.lt_or_ge i k with h | h
  · rw [byteAt_of_lt (by simpa using h)]
    exact List.getElem_replicate _
  · exact byteAt_of_length_le (by simpa using h)

/-! ### Padding (R85) -/

theorem pad16_length {p : List Byte} (hp : p.length ≤ 16) : (pad16 p).length = 16 := by
  simp only [pad16, Config.payloadLen, List.length_append, zeros_length]
  omega

/-- The caller's bytes stand first, and the zeros after them are what reading past their end gives anyway. -/
theorem byteAt_pad16 (p : List Byte) (i : Nat) : byteAt (pad16 p) i = byteAt p i := by
  rcases Nat.lt_or_ge i p.length with h | h
  · exact byteAt_append_left _ h
  · obtain ⟨j, rfl⟩ := Nat.exists_eq_add_of_le h
    rw [pad16, byteAt_append_right, byteAt_zeros, byteAt_of_length_le h]

theorem pad16_of_length {p : List Byte} (hp : p.length = 16) : pad16 p = p := by
  simp [pad16, Config.payloadLen, hp, zeros]

theorem pad16_pad16 {p : List Byte} (hp : p.length ≤ 16) : pad16 (pad16 p) = pad16 p :=
  pad16_of_length (pad16_length hp)

/-- Settles O27: a payload of 16 bytes needs no zeros, and a padded one has 16. -/
theorem paddingToSixteenBytes : Obligations.PaddingToSixteenBytes :=
  ⟨fun _ hp => ⟨rfl, pad16_length hp, pad16_pad16 hp⟩, rfl, fun _ => pad16_of_length⟩

/-! ### The frame (R86; the layout of 30_encoding.md R50) -/

/-- The bytes of an encoded frame: the protected bytes, then their checksum. -/
def frameBytes (d c : Byte) (p : List Byte) : List Byte := protectedBytes d c p ++ [crc8 (protectedBytes d c p)]

theorem frameOf_of_fits (d c : Byte) {p : List Byte} (hp : p.length ≤ 16) :
    frameOf d c p = .ok (frameBytes d c p) :=
  if_neg (Nat.not_lt.2 hp)

theorem frameOf_of_long (d c : Byte) {p : List Byte} (hp : 16 < p.length) :
    frameOf d c p = .error .payloadTooLong :=
  if_pos hp

theorem protectedBytes_length (d c : Byte) {p : List Byte} (hp : p.length ≤ 16) :
    (protectedBytes d c p).length = 19 := by
  simp [protectedBytes, pad16_length hp]

theorem protectedBytes_pad16 (d c : Byte) {p : List Byte} (hp : p.length ≤ 16) :
    protectedBytes d c (pad16 p) = protectedBytes d c p := by
  rw [protectedBytes, pad16_pad16 hp, protectedBytes]

theorem frameBytes_length (d c : Byte) {p : List Byte} (hp : p.length ≤ 16) : (frameBytes d c p).length = 20 := by
  simp [frameBytes, protectedBytes_length d c hp]

theorem frameBytes_take (d c : Byte) {p : List Byte} (hp : p.length ≤ 16) :
    (frameBytes d c p).take 19 = protectedBytes d c p :=
  List.take_left' (protectedBytes_length d c hp)

theorem byteAt_frameBytes_device (d c : Byte) (p : List Byte) : byteAt (frameBytes d c p) 0 = d := rfl

theorem byteAt_frameBytes_command (d c : Byte) (p : List Byte) : byteAt (frameBytes d c p) 1 = c := rfl

/-- Byte 2 is zero on every encoded frame (90_conflicts.md C3). -/
theorem byteAt_frameBytes_reserved (d c : Byte) (p : List Byte) : byteAt (frameBytes d c p) 2 = 0x00#8 := rfl

theorem byteAt_frameBytes_payload (d c : Byte) {p : List Byte} {i : Nat} (hp : p.length ≤ 16) (hi : i < 16) :
    byteAt (frameBytes d c p) (3 + i) = byteAt p i := by
  have hin : 3 + i < (protectedBytes d c p).length := by
    rw [protectedBytes_length d c hp]
    omega
  calc
    byteAt (frameBytes d c p) (3 + i) = byteAt (protectedBytes d c p) (3 + i) := byteAt_append_left _ hin
    _ = byteAt (pad16 p) i := byteAt_append_right [d, c, 0x00#8] (pad16 p) i
    _ = byteAt p i := byteAt_pad16 p i

theorem byteAt_frameBytes_padding (d c : Byte) {p : List Byte} {i : Nat} (hp : p.length ≤ 16) (hpi : p.length ≤ i)
    (hi : i < 16) : byteAt (frameBytes d c p) (3 + i) = 0x00#8 := by
  rw [byteAt_frameBytes_payload d c hp hi, byteAt_of_length_le hpi]

theorem byteAt_frameBytes_checksum (d c : Byte) {p : List Byte} (hp : p.length ≤ 16) :
    byteAt (frameBytes d c p) 19 = crc8 (protectedBytes d c p) := by
  rw [frameBytes, ← protectedBytes_length d c hp, byteAt_concat_length]

/-- The frame of nothing but zeros is twenty zeros, because the checksum of zeros is zero (40_checksum.md R68). -/
theorem frameBytes_zero : frameBytes 0x00#8 0x00#8 [] = zeros 20 := by
  have hprot : protectedBytes 0x00#8 0x00#8 [] = zeros 19 := rfl
  rw [frameBytes, hprot, crc8_zeros]
  rfl

/-- Settles O28: the length test alone decides, and `frameBytes` is read off region by region. -/
theorem frameLayoutByteByByte : Obligations.FrameLayoutByteByByte := by
  refine ⟨fun d c p => frameOf_of_long d c, fun d c p hp => ?layout, fun d c p hp => ?padded, ?zero⟩
  case layout =>
    refine ⟨frameBytes d c p, frameOf_of_fits d c hp, frameBytes_length d c hp,
      byteAt_frameBytes_device d c p, byteAt_frameBytes_command d c p, byteAt_frameBytes_reserved d c p,
      fun i hi => byteAt_frameBytes_payload d c hp (Nat.lt_of_lt_of_le hi hp),
      fun i => byteAt_frameBytes_padding d c hp, ?_⟩
    rw [frameBytes_take d c hp, byteAt_frameBytes_checksum d c hp]
  case padded =>
    rw [frameOf_of_fits d c hp, frameOf_of_fits d c (pad16_length hp).le, frameBytes, frameBytes,
      protectedBytes_pad16 d c hp]
  case zero => rw [frameOf_of_fits _ _ (by decide), frameBytes_zero]

/-! ### Taking a frame apart (R87) -/

/-- The payload of a received sequence: its bytes from 3 on but the last, nothing stripped. -/
def payloadBytes (s : List Byte) : List Byte := (s.take (s.length - 1)).drop 3

theorem payloadBytes_length (s : List Byte) : (payloadBytes s).length = s.length - 4 := by
  simp only [payloadBytes, List.length_drop, List.length_take]
  omega

theorem byteAt_payloadBytes {s : List Byte} {i : Nat} (hi : i < s.length - 4) :
    byteAt (payloadBytes s) i = byteAt s (3 + i) := by
  rw [payloadBytes, byteAt_drop, byteAt_take s (by omega)]

theorem parse_of_short {s : List Byte} (hlen : s.length < 4) : parse s = .error .frameTooShort :=
  if_pos hlen

theorem parse_of_mismatch {s : List Byte} (hlen : 4 ≤ s.length)
    (hsum : crc8 (s.take (s.length - 1)) ≠ byteAt s (s.length - 1)) : parse s = .error .checksumMismatch :=
  (if_neg (Nat.not_lt.2 hlen)).trans (if_pos hsum)

theorem parse_of_match {s : List Byte} (hlen : 4 ≤ s.length)
    (hsum : crc8 (s.take (s.length - 1)) = byteAt s (s.length - 1)) :
    parse s = .ok ⟨byteAt s 0, byteAt s 1, byteAt s 2, payloadBytes s⟩ :=
  (if_neg (Nat.not_lt.2 hlen)).trans (if_neg (not_not.2 hsum))

/-- Settles O29: one lemma per branch of `parse`, and the bytes of `payloadBytes`. -/
theorem parseTestsLengthThenChecksum : Obligations.ParseTestsLengthThenChecksum := by
  refine fun s => ⟨parse_of_short, parse_of_mismatch, fun hlen hsum => ?accepted⟩
  case accepted =>
    refine ⟨payloadBytes s, parse_of_match hlen hsum, payloadBytes_length s, fun i hi => ?_⟩
    exact byteAt_payloadBytes (payloadBytes_length s ▸ hi)

end Sys2Proof.Machine
end

section
/-! PROOFS, 41_frame_codec.md section 2: the operations ENCODE (R91) and DECODE (R95). Each is tied to the function of
section 1 over the operand sequence, and its cells are then read off that function's bytes. -/

open Sys2Proof.Claims

namespace Sys2Proof.Machine

/-! ### Operand and result sequences as byte sequences -/

theorem State.byteAt_operandSeq (s : State) {i : Nat} (hi : i < s.inLen.toNat) :
    byteAt s.operandSeq i = s.readIn i := by
  rw [byteAt_of_lt (by simpa using hi), State.operandSeq_getElem]

theorem State.operandSeq_fits {s : State} {n : Nat} (hlen : s.inLen.toNat ≤ n) : s.operandSeq.length ≤ n := by
  rwa [State.operandSeq_length]

theorem State.operandSeq_take (s : State) {n : Nat} (hn : n ≤ s.inLen.toNat) :
    s.operandSeq.take n = (List.range n).map s.readIn := by
  rw [s.operandSeq_eq_map, ← List.map_take, List.take_range, Nat.min_eq_left hn]

theorem State.writeOut_readOut_of_lt (s : State) {vs : List Byte} {i : Nat} (hi : i < vs.length) :
    (s.writeOut vs).readOut i = byteAt vs i := by
  rw [State.writeOut_readOut, dif_pos hi, byteAt_of_lt hi]

theorem State.writeOut_readOut_of_le (s : State) {vs : List Byte} {i : Nat} (hi : vs.length ≤ i) :
    (s.writeOut vs).readOut i = s.readOut i := by
  rw [State.writeOut_readOut, dif_neg (Nat.not_lt.2 hi)]

/-- The first cells of `OUT` after a result was written are the result's first bytes. -/
theorem State.map_readOut_writeOut (s : State) {vs : List Byte} {k : Nat} (hk : k ≤ vs.length) :
    (List.range k).map (s.writeOut vs).readOut = vs.take k := by
  apply List.ext_getElem
  · simp [hk]
  · intro i hi _
    have hlt : i < vs.length := by
      simp only [List.length_map, List.length_range] at hi
      omega
    simp [hlt]

/-! ### ENCODE (R91) -/

/-- The state ENCODE leaves where it completes: the frame in `OUT`, its checksum in `CRC`. -/
def State.encoded (s : State) : State :=
  (((s.writeOut (frameBytes s.dev s.cmd s.operandSeq)).setOutLen 20#8).setCrc
    (crc8 (protectedBytes s.dev s.cmd s.operandSeq))).setErr .ok

theorem State.encoded_crc (s : State) : s.encoded.crc = crc8 (protectedBytes s.dev s.cmd s.operandSeq) := by
  rw [State.encoded, State.setErr_crc, State.setCrc_crc]

theorem State.encoded_outLen (s : State) : s.encoded.outLen = 20#8 := rfl

theorem State.encoded_status (s : State) : s.encoded.status = 0x00#8 := rfl

/-- What R91 lists as unchanged on success, but for `OUT[20..255]`. -/
theorem State.encoded_frame (s : State) :
    keepsOperands s s.encoded ∧ keepsHeader s s.encoded ∧ keepsHost s s.encoded :=
  ⟨⟨rfl, rfl, rfl, fun _ => rfl⟩, ⟨rfl, rfl, rfl⟩, rfl, rfl, rfl⟩

/-- Where the payload fits, ENCODE writes the bytes of `frame_of`. -/
theorem exec_encode_of_fits {s : State} (hlen : s.inLen.toNat ≤ 16) : exec .encode s = .next s.encoded := by
  obtain ⟨hlong, -⟩ | ⟨-, h, hframe, -, hexec⟩ := execEncode_cases s
  · exact absurd hlong (Nat.not_lt.2 hlen)
  · have hprot : h = protectedBytes s.dev s.cmd s.operandSeq := by
      rw [hframe, List.append_assoc, protectedBytes, pad16, State.operandSeq_length, State.operandSeq]
    rw [State.encoded, frameBytes, ← hprot]
    exact hexec

theorem exec_encode_of_long {s : State} (hlen : 16 < s.inLen.toNat) :
    exec .encode s = .next { s with status := 0x01#8, outLen := 0x00#8 } := by
  obtain ⟨-, hexec⟩ | ⟨hfits, -⟩ := execEncode_cases s
  · exact hexec
  · exact absurd hlen (Nat.not_lt.2 hfits)

theorem State.encoded_readOut_of_lt {s : State} {i : Nat} (hlen : s.inLen.toNat ≤ 16) (hi : i < 20) :
    s.encoded.readOut i = byteAt (frameBytes s.dev s.cmd s.operandSeq) i :=
  s.writeOut_readOut_of_lt (by rwa [frameBytes_length _ _ (State.operandSeq_fits hlen)])

theorem State.encoded_readOut_of_le {s : State} {i : Nat} (hlen : s.inLen.toNat ≤ 16) (hi : 20 ≤ i) :
    s.encoded.readOut i = s.readOut i :=
  s.writeOut_readOut_of_le (by rwa [frameBytes_length _ _ (State.operandSeq_fits hlen)])

theorem State.map_readOut_encoded {s : State} {k : Nat} (hlen : s.inLen.toNat ≤ 16) (hk : k ≤ 20) :
    (List.range k).map s.encoded.readOut = (frameBytes s.dev s.cmd s.operandSeq).take k :=
  s.map_readOut_writeOut (by rwa [frameBytes_length _ _ (State.operandSeq_fits hlen)])

/-! ### DECODE (R95) -/

/-- The state DECODE leaves where it completes: header, payload and checksum of the operand sequence. -/
def State.decoded (s : State) : State :=
  ((((s.setCrc (s.readIn (s.inLen.toNat - 1))).setHeader (s.readIn 0) (s.readIn 1) (s.readIn 2)).writeOut
    (payloadBytes s.operandSeq)).setOutLen (BitVec.ofNat 8 (s.inLen.toNat - 4))).setErr .ok

theorem State.decoded_crc (s : State) : s.decoded.crc = s.readIn (s.inLen.toNat - 1) := rfl

theorem State.decoded_status (s : State) : s.decoded.status = 0x00#8 := rfl

theorem State.decoded_outLen (s : State) : s.decoded.outLen = BitVec.ofNat 8 (s.inLen.toNat - 4) := rfl

theorem State.decoded_outLen_toNat (s : State) : s.decoded.outLen.toNat = s.inLen.toNat - 4 := by
  have hlen : s.inLen.toNat < 2 ^ 8 := s.inLen.isLt
  rw [State.decoded_outLen, BitVec.toNat_ofNat, Nat.mod_eq_of_lt (by omega)]

/-- The header registers hold the first three operand cells. -/
theorem State.decoded_header (s : State) :
    s.decoded.rdev = s.readIn 0 ∧ s.decoded.rcmd = s.readIn 1 ∧ s.decoded.rrsv = s.readIn 2 :=
  ⟨rfl, rfl, rfl⟩

/-- What R95 lists as unchanged on success, but for the cells of `OUT`. -/
theorem State.decoded_frame (s : State) : keepsOperands s s.decoded ∧ keepsHost s s.decoded :=
  ⟨⟨rfl, rfl, rfl, fun _ => rfl⟩, rfl, rfl, rfl⟩

theorem State.inSeq_eq_payloadBytes (s : State) : s.inSeq 3 (s.inLen.toNat - 4) = payloadBytes s.operandSeq := by
  apply List.ext_getElem
  · rw [State.inSeq_length, payloadBytes_length, State.operandSeq_length]
  · intro i hi _
    simp [payloadBytes]

/-- Where the last byte is the checksum of the others, DECODE writes what `parse` reads. -/
theorem exec_decode_of_match {s : State} (hlen : 4 ≤ s.inLen.toNat)
    (hsum : crc8 (s.inSeq 0 (s.inLen.toNat - 1)) = s.readIn (s.inLen.toNat - 1)) :
    exec .decode s = .next s.decoded := by
  obtain ⟨hshort, -⟩ | ⟨-, hbad, -⟩ | ⟨-, -, hexec⟩ := execDecode_cases s
  · exact absurd hlen (Nat.not_le.2 hshort)
  · exact absurd hsum hbad
  · rw [State.decoded, ← hsum, ← s.inSeq_eq_payloadBytes]
    exact hexec

theorem exec_decode_of_short {s : State} (hlen : s.inLen.toNat < 4) :
    exec .decode s = .next { s with status := 0x02#8, outLen := 0x00#8 } := by
  obtain ⟨-, hexec⟩ | ⟨hlong, -⟩ | ⟨hlong, -⟩ := execDecode_cases s
  · exact hexec
  · exact absurd hlen (Nat.not_lt.2 hlong)
  · exact absurd hlen (Nat.not_lt.2 hlong)

theorem exec_decode_of_mismatch {s : State} (hlen : 4 ≤ s.inLen.toNat)
    (hsum : crc8 (s.inSeq 0 (s.inLen.toNat - 1)) ≠ s.readIn (s.inLen.toNat - 1)) :
    exec .decode s = .next { s with
      status := 0x03#8, outLen := 0x00#8, crc := crc8 (s.inSeq 0 (s.inLen.toNat - 1)) } := by
  obtain ⟨hshort, -⟩ | ⟨-, -, hexec⟩ | ⟨-, hgood, -⟩ := execDecode_cases s
  · exact absurd hlen (Nat.not_le.2 hshort)
  · exact hexec
  · exact absurd hgood hsum

/-- The test DECODE makes of its operand cells is the one `parse` makes of the operand sequence. -/
theorem State.parse_operandSeq_of_match {s : State} (hlen : 4 ≤ s.inLen.toNat)
    (hsum : crc8 (s.inSeq 0 (s.inLen.toNat - 1)) = s.readIn (s.inLen.toNat - 1)) :
    parse s.operandSeq = .ok ⟨s.readIn 0, s.readIn 1, s.readIn 2, payloadBytes s.operandSeq⟩ := by
  have htest : crc8 (s.operandSeq.take (s.operandSeq.length - 1)) =
      byteAt s.operandSeq (s.operandSeq.length - 1) := by
    rw [State.operandSeq_length, s.operandSeq_take (by omega), s.byteAt_operandSeq (by omega), ← State.inSeq_zero]
    exact hsum
  rw [parse_of_match (by rwa [State.operandSeq_length]) htest, s.byteAt_operandSeq (by omega),
    s.byteAt_operandSeq (by omega), s.byteAt_operandSeq (by omega)]

theorem State.payloadBytes_operandSeq_length (s : State) :
    (payloadBytes s.operandSeq).length = s.inLen.toNat - 4 := by
  rw [payloadBytes_length, State.operandSeq_length]

theorem State.decoded_readOut_of_lt {s : State} {i : Nat} (hi : i < s.inLen.toNat - 4) :
    s.decoded.readOut i = s.readIn (3 + i) := by
  calc
    s.decoded.readOut i = byteAt (payloadBytes s.operandSeq) i :=
      State.writeOut_readOut_of_lt _ (by rwa [s.payloadBytes_operandSeq_length])
    _ = byteAt s.operandSeq (3 + i) := byteAt_payloadBytes (by rwa [State.operandSeq_length])
    _ = s.readIn (3 + i) := s.byteAt_operandSeq (by omega)

theorem State.decoded_readOut_of_le {s : State} {i : Nat} (hi : s.inLen.toNat - 4 ≤ i) :
    s.decoded.readOut i = s.readOut i :=
  State.writeOut_readOut_of_le _ (by rwa [s.payloadBytes_operandSeq_length])

theorem State.map_readOut_decoded (s : State) :
    (List.range (s.inLen.toNat - 4)).map s.decoded.readOut = payloadBytes s.operandSeq := by
  rw [← s.payloadBytes_operandSeq_length]
  exact (State.map_readOut_writeOut _ le_rfl).trans (List.take_length ..)

/-! ### The example of both rules -/

/-- The payload of the example of R91 and R95. -/
def examplePayload : List Byte := [0x00#8, 0x00#8, 0x00#8, 0x64#8, 0x00#8, 0x00#8, 0x00#8, 0x9C#8]

/-- The frame of the example of R91 and R95. -/
def exampleFrame : List Byte := protectedBytes 0x01#8 0x04#8 examplePayload ++ [0xB6#8]

theorem crc8_example : crc8 (protectedBytes 0x01#8 0x04#8 examplePayload) = 0xB6#8 := by decide +kernel

/-- Settles O32: ENCODE completes in `State.encoded`, whose cells are the bytes of the frame of O28. -/
theorem encodeBuildsTheFrame : Obligations.EncodeBuildsTheFrame := by
  refine ⟨decode_encode .encode, fun s hlen => ?fits, fun s => exec_encode_of_long,
    fun s hdev hcmd hlen hcells => ?sample⟩
  case fits =>
    have hfits := State.operandSeq_fits hlen
    have hcell {i : Nat} (hi : i < 20) := State.encoded_readOut_of_lt hlen hi
    have hsum : s.encoded.readOut 19 = crc8 (protectedBytes s.dev s.cmd s.operandSeq) :=
      (hcell (by decide)).trans (byteAt_frameBytes_checksum _ _ hfits)
    refine ⟨s.encoded, exec_encode_of_fits hlen, (hcell (by decide)).trans (byteAt_frameBytes_device ..),
      (hcell (by decide)).trans (byteAt_frameBytes_command ..),
      (hcell (by decide)).trans (byteAt_frameBytes_reserved ..), fun i hi => ?payload,
      fun i hi hi16 => ?padding, ?checksum,
      s.encoded_crc.trans hsum.symm, s.encoded_outLen, s.encoded_status, ?frame,
      fun i => State.encoded_readOut_of_le hlen, s.encoded_frame⟩
    case payload =>
      rw [hcell (by omega), byteAt_frameBytes_payload _ _ hfits (by omega), s.byteAt_operandSeq hi]
    case padding =>
      rw [hcell (by omega), byteAt_frameBytes_padding _ _ hfits (State.operandSeq_fits hi) hi16]
    case checksum => rw [hsum, State.map_readOut_encoded hlen (by decide), frameBytes_take _ _ hfits]
    case frame =>
      rw [← State.operandSeq_eq_map, frameOf_of_fits _ _ hfits, State.map_readOut_encoded hlen le_rfl,
        List.take_of_length_le (frameBytes_length _ _ hfits).le]
  case sample =>
    have hfits : s.inLen.toNat ≤ 16 := by rw [hlen]; decide
    have hseq : s.operandSeq = examplePayload := by rw [s.operandSeq_eq_map, hlen]; exact hcells
    have hcrc : crc8 (protectedBytes s.dev s.cmd s.operandSeq) = 0xB6#8 := by rw [hdev, hcmd, hseq, crc8_example]
    refine ⟨s.encoded, exec_encode_of_fits hfits, s.encoded_crc.trans hcrc, ?_⟩
    rw [State.map_readOut_encoded hfits le_rfl, frameBytes, hcrc, hdev, hcmd, hseq]
    rfl

/-- Settles O33: DECODE completes in `State.decoded`, whose cells are the bytes of `payloadBytes` in O29, and raises by
the tests of `parse`. -/
theorem decodeTakesApartTheFrame : Obligations.DecodeTakesApartTheFrame := by
  simp only [Obligations.DecodeTakesApartTheFrame, ← State.inSeq_zero]
  refine ⟨decode_encode .decode, fun s hlen hsum => ?accepted, fun s => exec_decode_of_short,
    fun s => exec_decode_of_mismatch, fun s hlen hcells => ?sample⟩
  case accepted =>
    obtain ⟨hrdev, hrcmd, hrrsv⟩ := s.decoded_header
    refine ⟨s.decoded, exec_decode_of_match hlen hsum, hrdev, hrcmd, hrrsv, s.decoded_crc, s.decoded_outLen_toNat,
      s.decoded_status, fun i => State.decoded_readOut_of_lt, fun i => State.decoded_readOut_of_le, ?parsed,
      s.decoded_frame⟩
    case parsed =>
      rw [s.decoded_outLen_toNat, s.map_readOut_decoded, hrdev, hrcmd, hrrsv]
      exact State.parse_operandSeq_of_match hlen hsum
  case sample =>
    have hframe : s.operandSeq = exampleFrame := by rw [s.operandSeq_eq_map, hlen]; exact hcells
    have hlen4 : 4 ≤ s.inLen.toNat := by rw [hlen]; decide
    have hread {i : Nat} (hi : i < 20) : s.readIn i = byteAt exampleFrame i := by
      rw [← hframe, s.byteAt_operandSeq (by rwa [hlen])]
    have hlast : s.readIn (s.inLen.toNat - 1) = 0xB6#8 := by rw [hlen]; exact hread (by decide)
    have hsum : crc8 (s.inSeq 0 (s.inLen.toNat - 1)) = s.readIn (s.inLen.toNat - 1) := by
      rw [State.inSeq_zero, ← s.operandSeq_take (by omega), hframe, hlast, hlen]
      exact crc8_example
    refine ⟨s.decoded, exec_decode_of_match hlen4 hsum, s.decoded_status, hread (by decide), hread (by decide),
      hread (by decide), ?length, s.decoded_crc.trans hlast, ?cells⟩
    case length => rw [s.decoded_outLen, hlen]; rfl
    case cells =>
      have hmap := s.map_readOut_decoded
      rw [hframe, hlen] at hmap
      exact hmap

end Sys2Proof.Machine
end

section
/-! PROOFS, 60_exceptions.md: the error table (R110) as a function of the command word and the state, the effect of an
illegal word (R112) and the error response of ENCODE and DECODE (R113). -/

namespace Sys2Proof.Machine

theorem eq_of_next {o : Host.Outcome State Fault Refusal} {t u : State} (ht : o = .next t) (hu : o = .next u) :
    t = u :=
  Host.Outcome.next.inj (ht.symm.trans hu)

/-! ### The illegal word (R112) -/

theorem doMove_hcmd_of_legalWord_false {w : CmdWord} (hw : legalWord w = false) (s : State) :
    doMove (.hcmd w) s = .next { s with status := 0x04#8 } := by
  obtain ⟨e, he⟩ := (decode_error_iff_not_legalWord w).2 (by simp [hw])
  exact doMove_hcmd_of_illegal he s

/-- Settles O37: the decoder refuses what R47 does not list, and a refused word only writes `STATUS`. -/
theorem illegalWordOnlySetsErr : Obligations.IllegalWordOnlySetsErr :=
  fun _ s hw => doMove_hcmd_of_legalWord_false hw s

/-! ### The error response (R113) -/

theorem not_frameError_of_ok {status : Byte} (h : status = 0x00#8) : ¬ frameError status := by
  subst h
  decide

theorem not_frameError_of_illegalOp {status : Byte} (h : status = 0x04#8) : ¬ frameError status := by
  subst h
  decide

theorem exec_encode_of_frameError {s t : State} (h : exec .encode s = .next t) (herr : frameError t.status) :
    t = { s with status := 0x01#8, outLen := 0x00#8 } := by
  rcases Nat.lt_or_ge 16 s.inLen.toNat with hlong | hfits
  · exact eq_of_next h (exec_encode_of_long hlong)
  · obtain rfl := eq_of_next h (exec_encode_of_fits hfits)
    exact absurd herr (not_frameError_of_ok s.encoded_status)

theorem exec_decode_of_frameError {s t : State} (h : exec .decode s = .next t) (herr : frameError t.status)
    (hlen : 4 ≤ s.inLen.toNat) :
    t = { s with status := 0x03#8, outLen := 0x00#8, crc := crc8 (s.inSeq 0 (s.inLen.toNat - 1)) } := by
  by_cases hsum : crc8 (s.inSeq 0 (s.inLen.toNat - 1)) = s.readIn (s.inLen.toNat - 1)
  · obtain rfl := eq_of_next h (exec_decode_of_match hlen hsum)
    exact absurd herr (not_frameError_of_ok s.decoded_status)
  · exact eq_of_next h (exec_decode_of_mismatch hlen hsum)

/-- Settles O38: an operation that completes leaves no frame error, and each way to raise one is an equation for the
next state. -/
theorem errorResponseIsPrecise : Obligations.ErrorResponseIsPrecise := by
  simp only [Obligations.ErrorResponseIsPrecise, ← State.inSeq_zero]
  exact ⟨fun _ _ => exec_encode_of_frameError, fun _ _ h _ hshort => eq_of_next h (exec_decode_of_short hshort),
    fun _ _ => exec_decode_of_frameError⟩

/-! ### The error table (R110) -/

/-- The kind that R110 gives an operation performed in `s`. -/
def execKind (s : State) : Instr → ErrKind
  | .crcClr => .ok
  | .crcUpd _ => .ok
  | .cksum => .ok
  | .encode => if 16 < s.inLen.toNat then .payloadTooLong else .ok
  | .decode =>
    if s.inLen.toNat < 4 then .frameTooShort
    else if crc8 (s.inSeq 0 (s.inLen.toNat - 1)) = s.readIn (s.inLen.toNat - 1) then .ok
    else .checksumMismatch

/-- The kind that R110 gives a command word delivered in `s`; the decoder's verdict comes first (R114). -/
def commandKind (s : State) (w : CmdWord) : ErrKind :=
  match decode w with
  | .ok i => execKind s i
  | .error _ => .illegalOp

/-- A command word is the encoding of an operation, or the decoder refuses it. -/
theorem encode_or_illegal (w : CmdWord) : (∃ i, w = encode i) ∨ ∃ e, decode w = .error e := by
  cases h : decode w with
  | ok i => exact .inl ⟨i, (encode_of_decode h).symm⟩
  | error e => exact .inr ⟨e, rfl⟩

theorem commandKind_encode (s : State) (i : Instr) : commandKind s (encode i) = execKind s i := by
  rw [commandKind, decode_encode]

theorem commandKind_of_illegal (s : State) {w : CmdWord} {e : Illegal} (h : decode w = .error e) :
    commandKind s w = .illegalOp := by
  rw [commandKind, h]

/-- The operations report what the table says. -/
theorem exec_status {i : Instr} {s t : State} (h : exec i s = .next t) : t.status = statusWord (execKind s i) := by
  cases i with
  | crcClr => exact eq_of_next h (exec_crcClr s) ▸ rfl
  | crcUpd v => exact eq_of_next h (exec_crcUpd s v) ▸ rfl
  | cksum => exact eq_of_next h (exec_cksum s) ▸ rfl
  | encode =>
    rw [execKind]
    split_ifs with hlong
    · exact eq_of_next h (exec_encode_of_long hlong) ▸ rfl
    · exact eq_of_next h (exec_encode_of_fits (Nat.le_of_not_lt hlong)) ▸ rfl
  | decode =>
    rw [execKind]
    split_ifs with hshort hsum
    · exact eq_of_next h (exec_decode_of_short hshort) ▸ rfl
    · exact eq_of_next h (exec_decode_of_match (Nat.le_of_not_lt hshort) hsum) ▸ rfl
    · exact eq_of_next h (exec_decode_of_mismatch (Nat.le_of_not_lt hshort) hsum) ▸ rfl

/-- The command words report what the table says. -/
theorem doMove_hcmd_status {w : CmdWord} {s t : State} (h : doMove (.hcmd w) s = .next t) :
    t.status = statusWord (commandKind s w) := by
  obtain ⟨i, rfl⟩ | ⟨e, he⟩ := encode_or_illegal w
  · rw [doMove_hcmd_encode] at h
    rw [commandKind_encode, exec_status h]
  · rw [commandKind_of_illegal s he, eq_of_next h (doMove_hcmd_of_illegal he s), illegalOp_eq]

/-! One equivalence per row of the table. -/

theorem execKind_ne_illegalOp (s : State) (i : Instr) : execKind s i ≠ .illegalOp := by
  cases i <;> simp [execKind, ite_eq_iff]

theorem execKind_eq_payloadTooLong (s : State) (i : Instr) :
    execKind s i = .payloadTooLong ↔ i = .encode ∧ 16 < s.inLen.toNat := by
  cases i <;> simp [execKind, ite_eq_iff]

theorem execKind_eq_frameTooShort (s : State) (i : Instr) :
    execKind s i = .frameTooShort ↔ i = .decode ∧ s.inLen.toNat < 4 := by
  cases i <;> simp [execKind, ite_eq_iff]

theorem execKind_eq_checksumMismatch (s : State) (i : Instr) :
    execKind s i = .checksumMismatch ↔ i = .decode ∧ 4 ≤ s.inLen.toNat ∧
      crc8 (s.inSeq 0 (s.inLen.toNat - 1)) ≠ s.readIn (s.inLen.toNat - 1) := by
  cases i <;> simp [execKind, ite_eq_iff]

theorem commandKind_eq_iff (s : State) (w : CmdWord) {e : ErrKind} (he : e ≠ .illegalOp) :
    commandKind s w = e ↔ ∃ i, w = encode i ∧ execKind s i = e := by
  constructor
  · rintro rfl
    obtain ⟨i, rfl⟩ | ⟨r, hr⟩ := encode_or_illegal w
    · exact ⟨i, rfl, (commandKind_encode s i).symm⟩
    · exact absurd (commandKind_of_illegal s hr) he
  · rintro ⟨i, rfl, hi⟩
    rw [commandKind_encode, hi]

theorem commandKind_eq_payloadTooLong (s : State) (w : CmdWord) :
    commandKind s w = .payloadTooLong ↔ w = 0x0400#16 ∧ 16 < s.inLen.toNat := by
  have hword : encode .encode = 0x0400#16 := by decide
  simp [commandKind_eq_iff, execKind_eq_payloadTooLong, hword]

theorem commandKind_eq_frameTooShort (s : State) (w : CmdWord) :
    commandKind s w = .frameTooShort ↔ w = 0x0500#16 ∧ s.inLen.toNat < 4 := by
  have hword : encode .decode = 0x0500#16 := by decide
  simp [commandKind_eq_iff, execKind_eq_frameTooShort, hword]

theorem commandKind_eq_checksumMismatch (s : State) (w : CmdWord) :
    commandKind s w = .checksumMismatch ↔ w = 0x0500#16 ∧ 4 ≤ s.inLen.toNat ∧
      crc8 (s.inSeq 0 (s.inLen.toNat - 1)) ≠ s.readIn (s.inLen.toNat - 1) := by
  have hword : encode .decode = 0x0500#16 := by decide
  simp [commandKind_eq_iff, execKind_eq_checksumMismatch, hword]

theorem commandKind_eq_illegalOp (s : State) (w : CmdWord) :
    commandKind s w = .illegalOp ↔ legalWord w = false := by
  obtain ⟨i, rfl⟩ | ⟨e, he⟩ := encode_or_illegal w
  · simp [commandKind_encode, execKind_ne_illegalOp, legalWord_encode]
  · simpa [commandKind_of_illegal s he] using (decode_error_iff_not_legalWord w).1 ⟨e, he⟩

/-! What the table records beside the code. -/

theorem exec_outLen_of_frameError {i : Instr} {s t : State} (h : exec i s = .next t) (herr : frameError t.status) :
    t.outLen = 0x00#8 := by
  cases i with
  | crcClr => exact absurd herr (not_frameError_of_ok (exec_status h))
  | crcUpd v => exact absurd herr (not_frameError_of_ok (exec_status h))
  | cksum => exact absurd herr (not_frameError_of_ok (exec_status h))
  | encode => rw [exec_encode_of_frameError h herr]
  | decode =>
    rcases Nat.lt_or_ge s.inLen.toNat 4 with hshort | hlen
    · rw [eq_of_next h (exec_decode_of_short hshort)]
    · rw [exec_decode_of_frameError h herr hlen]

theorem doMove_hcmd_outLen_of_frameError {w : CmdWord} {s t : State} (h : doMove (.hcmd w) s = .next t)
    (herr : frameError t.status) : t.outLen = 0x00#8 := by
  obtain ⟨i, rfl⟩ | ⟨e, he⟩ := encode_or_illegal w
  · exact exec_outLen_of_frameError (doMove_hcmd_encode i s ▸ h) herr
  · have hstatus := doMove_hcmd_status h
    rw [commandKind_of_illegal s he] at hstatus
    exact absurd herr (not_frameError_of_illegalOp hstatus)

/-- A mismatch leaves the recomputed checksum for the host to look at. -/
theorem doMove_hcmd_crc_of_checksumMismatch {w : CmdWord} {s t : State} (h : doMove (.hcmd w) s = .next t)
    (hkind : commandKind s w = .checksumMismatch) : t.crc = crc8 (s.inSeq 0 (s.inLen.toNat - 1)) := by
  obtain ⟨rfl, hlen, hsum⟩ := (commandKind_eq_checksumMismatch s w).1 hkind
  have hexec : exec .decode s = .next t := (doMove_hcmd_encode .decode s).symm.trans h
  rw [eq_of_next hexec (exec_decode_of_mismatch hlen hsum)]

/-- Settles O36: `ERR` holds the code of `commandKind`, and a code belongs to one kind only, so each clause is a row of
the table. -/
theorem eachErrorExactlyWhen : Obligations.EachErrorExactlyWhen := by
  simp only [Obligations.EachErrorExactlyWhen, ← State.inSeq_zero]
  intro w s t h
  have hstatus := doMove_hcmd_status h
  have hcode (e : ErrKind) : errField t.status = e.code ↔ commandKind s w = e := by
    rw [hstatus, errField_statusWord, ErrKind.code_injective.eq_iff]
  refine ⟨?bound, (hcode .payloadTooLong).trans (commandKind_eq_payloadTooLong s w),
    (hcode .frameTooShort).trans (commandKind_eq_frameTooShort s w),
    (hcode .checksumMismatch).trans (commandKind_eq_checksumMismatch s w),
    (hcode .illegalOp).trans (commandKind_eq_illegalOp s w), doMove_hcmd_outLen_of_frameError h,
    fun herr => doMove_hcmd_crc_of_checksumMismatch h ((hcode .checksumMismatch).1 herr)⟩
  case bound =>
    rw [hstatus]
    exact (statusLegal_statusWord _).2

end Sys2Proof.Machine
end

section
/-! PROOFS, 41_frame_codec.md section 1: when `parse` accepts, and the round trip of the frame codec (R88). -/

namespace Sys2Proof.Machine

/-- A sequence that is long enough and ends with the checksum of its other bytes is what `parse` accepts. -/
theorem parse_eq_ok_iff {s : List Byte} {r : Parsed} :
    parse s = .ok r ↔ 4 ≤ s.length ∧ crc8 (s.take (s.length - 1)) = byteAt s (s.length - 1) ∧
      r = ⟨byteAt s 0, byteAt s 1, byteAt s 2, payloadBytes s⟩ := by
  constructor
  · intro h
    rcases Nat.lt_or_ge s.length 4 with hshort | hlen
    · rw [parse_of_short hshort] at h
      cases h
    · by_cases hsum : crc8 (s.take (s.length - 1)) = byteAt s (s.length - 1)
      · rw [parse_of_match hlen hsum] at h
        cases h
        exact ⟨hlen, hsum, rfl⟩
      · rw [parse_of_mismatch hlen hsum] at h
        cases h
  · rintro ⟨hlen, hsum, rfl⟩
    exact parse_of_match hlen hsum

theorem take_concat_byteAt {s : List Byte} {n : Nat} (hn : n < s.length) :
    s.take n ++ [byteAt s n] = s.take (n + 1) := by
  rw [byteAt_of_lt hn, List.take_concat_get' s n hn]

/-- A nonempty sequence is its bytes but the last, and then the last. -/
theorem eq_take_concat_byteAt {s : List Byte} (hs : 0 < s.length) :
    s = s.take (s.length - 1) ++ [byteAt s (s.length - 1)] := by
  rw [take_concat_byteAt (by omega), Nat.sub_add_cancel hs, List.take_length]

theorem payloadBytes_frameBytes (d c : Byte) {p : List Byte} (hp : p.length ≤ 16) :
    payloadBytes (frameBytes d c p) = pad16 p := by
  rw [payloadBytes, frameBytes_length d c hp, frameBytes_take d c hp]
  rfl

/-- Decoding an encoded frame gives back its header, the zero reserved byte and the padded payload. -/
theorem parse_frameBytes (d c : Byte) {p : List Byte} (hp : p.length ≤ 16) :
    parse (frameBytes d c p) = .ok ⟨d, c, 0x00#8, pad16 p⟩ := by
  have hlen : (frameBytes d c p).length = 20 := frameBytes_length d c hp
  refine parse_eq_ok_iff.2 ⟨by omega, ?sum, ?parts⟩
  case sum => rw [hlen, frameBytes_take d c hp, byteAt_frameBytes_checksum d c hp]
  case parts =>
    rw [byteAt_frameBytes_device, byteAt_frameBytes_command, byteAt_frameBytes_reserved,
      payloadBytes_frameBytes d c hp]

/-- The bytes before the last are the three header bytes and then the payload. -/
theorem take_eq_header_append_payloadBytes {s : List Byte} (hs : 4 ≤ s.length) :
    s.take (s.length - 1) = [byteAt s 0, byteAt s 1, byteAt s 2] ++ payloadBytes s := by
  match s, hs with
  | b0 :: b1 :: b2 :: b3 :: rest, _ => rfl

/-- A 20-byte sequence with a zero reserved byte is the frame of what stands in it, once its last byte is the checksum
of the others. -/
theorem eq_frameBytes_of_checksum {s : List Byte} (hlen : s.length = 20) (hrsv : byteAt s 2 = 0x00#8)
    (hsum : crc8 (s.take (s.length - 1)) = byteAt s (s.length - 1)) :
    s = frameBytes (byteAt s 0) (byteAt s 1) (payloadBytes s) := by
  have hpay : (payloadBytes s).length = 16 := by rw [payloadBytes_length, hlen]
  have hprot : s.take (s.length - 1) = protectedBytes (byteAt s 0) (byteAt s 1) (payloadBytes s) := by
    rw [take_eq_header_append_payloadBytes (by omega), protectedBytes, pad16_of_length hpay, hrsv]
  calc
    s = s.take (s.length - 1) ++ [byteAt s (s.length - 1)] := eq_take_concat_byteAt (by omega)
    _ = frameBytes (byteAt s 0) (byteAt s 1) (payloadBytes s) := by rw [← hsum, hprot, frameBytes]

/-- Settles O30: `parse` reads `frameBytes` back, and a sequence `parse` accepts is the `frameBytes` of its parts. -/
theorem frameRoundTrip : Obligations.FrameRoundTrip := by
  refine ⟨fun d c p hp => ⟨frameBytes d c p, frameOf_of_fits d c hp, parse_frameBytes d c hp⟩,
    fun s r hlen hrsv hparse => ?frameOfParts⟩
  case frameOfParts =>
    obtain ⟨-, hsum, rfl⟩ := parse_eq_ok_iff.1 hparse
    have hpay : (payloadBytes s).length ≤ 16 := by rw [payloadBytes_length, hlen]
    rw [frameOf_of_fits _ _ hpay, ← eq_frameBytes_of_checksum hlen hrsv hsum]

end Sys2Proof.Machine
end

section
/-! PROOFS, 10_state.md section 5 and 60_exceptions.md: what the operations and the host moves can do, said once, and
what follows of it: the table of host moves (R24), who writes what (R10), and which cells and registers an operation
reads. -/

open Sys2Proof.Claims

namespace Sys2Proof.Machine

/-! ### What an operation can do -/

/-- `OpEffect s i t`: the operation `i`, performed in `s`, may leave `t`. A sum writes `CRC` and reports no error; a
raised error clears `OUT_LEN` and may leave a recomputed `CRC`; ENCODE and DECODE may complete. -/
inductive OpEffect (s : State) : Instr → State → Prop
  | summed {i : Instr} (c : Byte) (hencode : i ≠ .encode) (hdecode : i ≠ .decode) :
      OpEffect s i { s with crc := c, status := 0x00#8 }
  | raised {i : Instr} (e : ErrKind) (c : Byte) (hi : i = .encode ∨ i = .decode) :
      OpEffect s i { s with status := statusWord e, outLen := 0x00#8, crc := c }
  | encoded (hfits : s.inLen.toNat ≤ 16) : OpEffect s .encode s.encoded
  | decoded (hlen : 4 ≤ s.inLen.toNat)
      (hsum : crc8 (s.inSeq 0 (s.inLen.toNat - 1)) = s.readIn (s.inLen.toNat - 1)) : OpEffect s .decode s.decoded

/-- Every operation completes in every state, with one of its effects. -/
theorem exists_exec_opEffect (i : Instr) (s : State) : ∃ t, exec i s = .next t ∧ OpEffect s i t := by
  cases i with
  | crcClr => exact ⟨_, exec_crcClr s, .summed _ (by decide) (by decide)⟩
  | crcUpd v => exact ⟨_, exec_crcUpd s v, .summed _ (by simp) (by simp)⟩
  | cksum => exact ⟨_, exec_cksum s, .summed _ (by decide) (by decide)⟩
  | encode =>
    rcases Nat.lt_or_ge 16 s.inLen.toNat with hlong | hfits
    · exact ⟨_, exec_encode_of_long hlong, .raised .payloadTooLong s.crc (.inl rfl)⟩
    · exact ⟨_, exec_encode_of_fits hfits, .encoded hfits⟩
  | decode =>
    rcases Nat.lt_or_ge s.inLen.toNat 4 with hshort | hlen
    · exact ⟨_, exec_decode_of_short hshort, .raised .frameTooShort s.crc (.inr rfl)⟩
    · by_cases hsum : crc8 (s.inSeq 0 (s.inLen.toNat - 1)) = s.readIn (s.inLen.toNat - 1)
      · exact ⟨_, exec_decode_of_match hlen hsum, .decoded hlen hsum⟩
      · exact ⟨_, exec_decode_of_mismatch hlen hsum, .raised .checksumMismatch _ (.inr rfl)⟩

theorem opEffect_of_exec {i : Instr} {s t : State} (h : exec i s = .next t) : OpEffect s i t := by
  obtain ⟨u, hexec, heffect⟩ := exists_exec_opEffect i s
  exact eq_of_next h hexec ▸ heffect

theorem OpEffect.keeps {i : Instr} {s t : State} (h : OpEffect s i t) : keepsOperands s t ∧ keepsHost s t := by
  cases h with
  | summed c => exact ⟨⟨rfl, rfl, rfl, fun _ => rfl⟩, rfl, rfl, rfl⟩
  | raised e c => exact ⟨⟨rfl, rfl, rfl, fun _ => rfl⟩, rfl, rfl, rfl⟩
  | encoded =>
    obtain ⟨hoperands, -, hhost⟩ := s.encoded_frame
    exact ⟨hoperands, hhost⟩
  | decoded => exact s.decoded_frame

/-- The operations of the checksum engine write `CRC` and `STATUS` only. -/
theorem OpEffect.eq_of_sum {i : Instr} {s t : State} (h : OpEffect s i t) (hencode : i ≠ .encode)
    (hdecode : i ≠ .decode) : t = { s with crc := t.crc, status := t.status } := by
  cases h with
  | summed c => rfl
  | raised e c hi => exact (hi.elim hencode hdecode).elim
  | encoded => exact absurd rfl hencode
  | decoded => exact absurd rfl hdecode

theorem OpEffect.keepsResult {i : Instr} {s t : State} (h : OpEffect s i t) (hencode : i ≠ .encode)
    (hdecode : i ≠ .decode) : t.outLen = s.outLen ∧ ∀ j, t.readOut j = s.readOut j := by
  rw [h.eq_of_sum hencode hdecode]
  exact ⟨rfl, fun _ => rfl⟩

theorem OpEffect.keepsHeader {i : Instr} {s t : State} (h : OpEffect s i t) (hdecode : i ≠ .decode) :
    keepsHeader s t := by
  cases h with
  | summed c => exact ⟨rfl, rfl, rfl⟩
  | raised e c => exact ⟨rfl, rfl, rfl⟩
  | encoded =>
    obtain ⟨-, hheader, -⟩ := s.encoded_frame
    exact hheader
  | decoded => exact absurd rfl hdecode

/-- A command word performs the operation it encodes, or is illegal and sets `ERR` alone. -/
theorem doMove_hcmd_cases {w : CmdWord} {s t : State} (h : doMove (.hcmd w) s = .next t) :
    (∃ i, w = encode i ∧ exec i s = .next t) ∨ ((∃ e, decode w = .error e) ∧ t = illegalOp s) := by
  obtain ⟨i, rfl⟩ | ⟨e, he⟩ := encode_or_illegal w
  · exact .inl ⟨i, rfl, doMove_hcmd_encode i s ▸ h⟩
  · exact .inr ⟨⟨e, he⟩, eq_of_next h (doMove_hcmd_of_illegal he s)⟩

end Sys2Proof.Machine
end

section
/-! PROOFS, the invariant of Safety.lean: it holds at reset, and every step keeps it. It speaks of the two buffers,
`STATUS` and `OUT_LEN` only, so there is one rule for each way in which a move writes these. -/

namespace Sys2Proof.Machine

/-- Settles O46: no cell is listed, no error reported, no result there. -/
theorem invariantAtReset : Obligations.InvariantAtReset :=
  ⟨Memory.nil_wf, Memory.nil_wf, by decide, by decide, by decide, by decide⟩

theorem State.Inv.inBuf_wf {s : State} (hs : s.Inv) : s.inBuf.wf := hs.1

/-- A move that leaves `STATUS`, `OUT_LEN` and `OUT` alone keeps the invariant if it keeps `IN` canonical. -/
theorem State.Inv.of_outputs {s t : State} (hs : s.Inv) (hin : t.inBuf.wf) (hstatus : t.status = s.status)
    (hlen : t.outLen = s.outLen) (hout : t.outBuf = s.outBuf) : t.Inv := by
  obtain ⟨-, hswf, hslegal, hsbound, hserror, hswritten⟩ := hs
  simp only [State.Inv, hstatus, hlen, hout]
  exact ⟨hin, hswf, hslegal, hsbound, hserror, hswritten⟩

/-- A new `STATUS` that reports no frame error keeps the invariant. -/
theorem State.Inv.of_status {s t : State} (hs : s.Inv) (hin : t.inBuf = s.inBuf) (hlegal : statusLegal t.status)
    (herror : ¬ frameError t.status) (hlen : t.outLen = s.outLen) (hout : t.outBuf = s.outBuf) : t.Inv := by
  obtain ⟨hsin, hswf, -, hsbound, -, hswritten⟩ := hs
  simp only [State.Inv, hin, hlen, hout]
  exact ⟨hsin, hswf, hlegal, hsbound, fun h => absurd h herror, hswritten⟩

/-- The error response keeps the invariant: with `OUT_LEN` 0 there is no result. -/
theorem State.Inv.of_noResult {s t : State} (hs : s.Inv) (hin : t.inBuf = s.inBuf) (hlegal : statusLegal t.status)
    (hlen : t.outLen = 0x00#8) (hout : t.outBuf = s.outBuf) : t.Inv := by
  obtain ⟨hsin, hswf, -, -, -, -⟩ := hs
  simp only [State.Inv, hin, hlen, hout]
  exact ⟨hsin, hswf, hlegal, by decide, fun _ => trivial, by simp⟩

theorem Memory.lookup_writeSeq_isSome (m : Memory) {vs : List Byte} {i : Nat} (hi : i < vs.length) :
    ((m.writeSeq 0 vs).lookup i).isSome = true := by
  rw [Memory.lookup_writeSeq]
  simp [hi]

/-- A result of at most 251 bytes, written from `OUT[0]` on and with `OUT_LEN` its length, keeps the invariant. -/
theorem State.Inv.of_result {s t : State} (hs : s.Inv) {vs : List Byte} (hin : t.inBuf = s.inBuf)
    (hout : t.outBuf = s.outBuf.writeSeq 0 vs) (hlen : t.outLen.toNat = vs.length) (hbound : vs.length ≤ 251)
    (hok : t.status = 0x00#8) : t.Inv := by
  obtain ⟨hsin, hswf, -, -, -, -⟩ := hs
  have hcells : 0 + vs.length ≤ Config.bufCells := by
    simp only [Config.bufCells]
    omega
  simp only [State.Inv, hin, hout, hlen, hok]
  exact ⟨hsin, Memory.writeSeq_wf vs hswf hcells, statusLegal_statusWord .ok, hbound,
    fun h => absurd h (not_frameError_of_ok rfl), fun i hi => Memory.lookup_writeSeq_isSome _ hi⟩

theorem State.Inv.encoded {s : State} (hs : s.Inv) (hfits : s.inLen.toNat ≤ 16) : s.encoded.Inv := by
  have hlen := frameBytes_length s.dev s.cmd (State.operandSeq_fits hfits)
  exact hs.of_result (vs := frameBytes s.dev s.cmd s.operandSeq) rfl rfl hlen.symm (by omega) s.encoded_status

theorem State.Inv.decoded {s : State} (hs : s.Inv) : s.decoded.Inv := by
  have hlen := s.payloadBytes_operandSeq_length
  have hin : s.inLen.toNat < 2 ^ 8 := s.inLen.isLt
  exact hs.of_result (vs := payloadBytes s.operandSeq) rfl rfl (s.decoded_outLen_toNat.trans hlen.symm) (by omega)
    s.decoded_status

theorem OpEffect.inv {i : Instr} {s t : State} (h : OpEffect s i t) (hs : s.Inv) : t.Inv := by
  cases h with
  | summed c =>
    exact hs.of_status rfl (statusLegal_statusWord .ok) (not_frameError_of_ok rfl) rfl rfl
  | raised e c => exact hs.of_noResult rfl (statusLegal_statusWord e) rfl rfl
  | encoded hfits => exact hs.encoded hfits
  | decoded => exact hs.decoded

theorem State.Inv.illegalOp {s : State} (hs : s.Inv) : (illegalOp s).Inv :=
  hs.of_status rfl (statusLegal_statusWord .illegalOp) (not_frameError_of_illegalOp rfl) rfl rfl

theorem State.Inv.writePort {s : State} (hs : s.Inv) (k : RegNum) (v : Byte) : (s.writePort k v).Inv := by
  obtain ⟨-, h⟩ | ⟨-, h⟩ | ⟨-, h⟩ | ⟨-, -, -, h⟩ := writePort_cases s k v
  all_goals
    rw [h]
    exact hs.of_outputs hs.inBuf_wf rfl rfl rfl

theorem State.Inv.observe {s : State} (hs : s.Inv) (v : Byte) : (s.observe v).Inv :=
  hs.of_outputs hs.inBuf_wf rfl rfl rfl

theorem State.Inv.setScript {s : State} (hs : s.Inv) (ms : List HostMove) : (s.setScript ms).Inv :=
  hs.of_outputs hs.inBuf_wf rfl rfl rfl

theorem State.Inv.writeIn {s : State} (hs : s.Inv) (i v : Byte) : (s.writeIn i.toNat v).Inv :=
  hs.of_outputs (Memory.write_wf hs.inBuf_wf i.isLt) rfl rfl rfl

theorem resetBlock_inv (s : State) : (resetBlock s).Inv :=
  invariantAtReset.of_outputs Memory.nil_wf rfl rfl rfl

theorem doMove_inv {m : HostMove} {s t : State} (hs : s.Inv) (h : doMove m s = .next t) : t.Inv := by
  cases m with
  | hreset => exact eq_of_next h rfl ▸ resetBlock_inv s
  | hwr k v => exact eq_of_next h rfl ▸ hs.writePort k v
  | hrd k => exact eq_of_next h rfl ▸ hs.observe _
  | hwrin i v => exact eq_of_next h rfl ▸ hs.writeIn i v
  | hrdin i => exact eq_of_next h rfl ▸ hs.observe _
  | hrdout i => exact eq_of_next h rfl ▸ hs.observe _
  | hcmd w =>
    obtain ⟨i, -, hexec⟩ | ⟨-, rfl⟩ := doMove_hcmd_cases h
    · exact (opEffect_of_exec hexec).inv hs
    · exact hs.illegalOp

/-- Settles O47: a step is no move or one move, made with that move taken off the script, and `doMove_inv` is every
move. -/
theorem stepKeepsTheInvariant : Obligations.StepKeepsTheInvariant := by
  intro s t hs hstep
  cases hscript : s.script with
  | nil => exact eq_of_next hstep (step_of_empty hscript) ▸ hs
  | cons m ms => exact doMove_inv (hs.setScript ms) (step_of_script hscript ▸ hstep)

end Sys2Proof.Machine
end

section
/-! PROOFS, 10_state.md and 70_reset_and_hazards.md: the table of host moves (R24), the writers of each element (R10),
the cells an operation reads (R19), reset (R130), runs and steps (R134). -/

open Sys2Proof.Claims

namespace Sys2Proof.Machine

/-! ### Frames of the operations -/

/-- Settles O5: an operation keeps them by its effect, an illegal word writes `STATUS` alone. -/
theorem commandWordsKeepOperands : Obligations.CommandWordsKeepOperands := by
  intro w s t h
  obtain ⟨i, -, hexec⟩ | ⟨-, rfl⟩ := doMove_hcmd_cases h
  · exact (opEffect_of_exec hexec).keeps
  · exact ⟨⟨rfl, rfl, rfl, fun _ => rfl⟩, rfl, rfl, rfl⟩

/-- Settles O6: the three operations are the ones that are neither ENCODE nor DECODE. -/
theorem checksumOperationsFrame : Obligations.ChecksumOperationsFrame := by
  intro i s t hi hexec
  have hencode : i ≠ .encode := by rintro rfl; simp at hi
  have hdecode : i ≠ .decode := by rintro rfl; simp at hi
  have heffect := opEffect_of_exec hexec
  obtain ⟨⟨-, -, -, hin⟩, -⟩ := heffect.keeps
  obtain ⟨-, hout⟩ := heffect.keepsResult hencode hdecode
  exact ⟨heffect.eq_of_sum hencode hdecode, hin, hout⟩

/-- Settles O9: each legal word written out is the encoding of its operation; the other two are illegal. -/
theorem writtenOutWordsDecode : Obligations.WrittenOutWordsDecode := by
  have hillegal {w : CmdWord} (hw : legalWord w = false) (i : Instr) : decode w ≠ .ok i := fun h => by
    rw [(legalWord_iff_decode w).2 ⟨i, h⟩] at hw
    cases hw
  exact ⟨decode_encode .crcClr, decode_encode (.crcUpd 0x31#8), decode_encode .cksum, decode_encode .encode,
    decode_encode .decode, hillegal (by decide), hillegal (by decide)⟩

/-! ### The table of host moves (R24) -/

theorem registersZero_resetBlock (s : State) : registersZero (resetBlock s) := by
  simp [registersZero, resetBlock_eq, State.reset]

/-- Settles O2: each move is one of the named operations on the state, and `writePort_cases` is `HWR`. -/
theorem hostMovesOfTheTable : Obligations.HostMovesOfTheTable := by
  intro s
  refine ⟨⟨resetBlock s, rfl, registersZero_resetBlock s, rfl, rfl⟩, fun _ => rfl, fun _ => rfl, fun _ => rfl,
    fun k v hdev hcmd hlen => ?hwr, fun _ => rfl, fun i v => ?hwrin, fun _ => rfl, fun _ => rfl,
    fun w i hw => ?legal, fun w hw => doMove_hcmd_of_legalWord_false hw s⟩
  case hwr => rw [doMove, s.writePort_of_not_writable v hdev hcmd hlen]
  case hwrin => exact ⟨s.writeIn i.toNat v, rfl, rfl, by simp, fun j hj => by simp [hj]⟩
  case legal =>
    obtain rfl := encode_of_decode hw
    exact doMove_hcmd_encode i s

/-! ### Who writes what (R10, column "written by") -/

/-- `OnlyTheListedWritersChangeState` for one move. -/
def WritersOnly (m : HostMove) (s t : State) : Prop :=
  (t.crc ≠ s.crc → ∃ w i, m = .hcmd w ∧ decode w = .ok i) ∧
    (t.dev ≠ s.dev → ∃ v, m = .hwr 2#4 v) ∧
    (t.cmd ≠ s.cmd → ∃ v, m = .hwr 3#4 v) ∧
    (t.inLen ≠ s.inLen → ∃ v, m = .hwr 4#4 v) ∧
    (∀ i, t.readIn i ≠ s.readIn i → ∃ j v, m = .hwrin j v ∧ j.toNat = i) ∧
    (∀ i, t.readOut i ≠ s.readOut i → m = .hcmd 0x0400#16 ∨ m = .hcmd 0x0500#16) ∧
    (t.outLen ≠ s.outLen → m = .hcmd 0x0400#16 ∨ m = .hcmd 0x0500#16) ∧
    (¬ keepsHeader s t → m = .hcmd 0x0500#16) ∧
    (t.status ≠ s.status → ∃ w, m = .hcmd w)

theorem writersOnly_hwr (s : State) (k : RegNum) (v : Byte) : WritersOnly (.hwr k v) s (s.writePort k v) := by
  obtain ⟨rfl, h⟩ | ⟨rfl, h⟩ | ⟨rfl, h⟩ | ⟨-, -, -, h⟩ := writePort_cases s k v <;>
  · rw [h]
    simp [WritersOnly, keepsHeader, RegName.number]

theorem writersOnly_observe (m : HostMove) (s : State) (v : Byte) : WritersOnly m s (s.observe v) := by
  simp [WritersOnly, keepsHeader]

theorem writersOnly_hwrin (s : State) (i v : Byte) : WritersOnly (.hwrin i v) s (s.writeIn i.toNat v) := by
  simp [WritersOnly, keepsHeader]

/-- A legal word may write what R10 says of its operation. -/
theorem writersOnly_exec {i : Instr} {s t : State} (h : exec i s = .next t) :
    WritersOnly (.hcmd (encode i)) s t := by
  have heffect := opEffect_of_exec h
  obtain ⟨⟨hdev, hcmd, hlen, hin⟩, -⟩ := heffect.keeps
  have hresult (hkeep : ¬ (t.outLen = s.outLen ∧ ∀ j, t.readOut j = s.readOut j)) :
      i = .encode ∨ i = .decode := by
    by_contra hi
    obtain ⟨hencode, hdecode⟩ := not_or.1 hi
    exact hkeep (heffect.keepsResult hencode hdecode)
  have hheader (hkeep : ¬ keepsHeader s t) : i = .decode := by
    by_contra hdecode
    exact hkeep (heffect.keepsHeader hdecode)
  have hword (hi : i = .encode ∨ i = .decode) :
      HostMove.hcmd (encode i) = .hcmd 0x0400#16 ∨ HostMove.hcmd (encode i) = .hcmd 0x0500#16 :=
    hi.imp (congrArg fun j => HostMove.hcmd (encode j)) (congrArg fun j => HostMove.hcmd (encode j))
  exact ⟨fun _ => ⟨_, i, rfl, decode_encode i⟩, fun h => absurd hdev h, fun h => absurd hcmd h,
    fun h => absurd hlen h, fun j h => absurd (hin j) h,
    fun j h => hword (hresult fun hkeep => h (hkeep.2 j)), fun h => hword (hresult fun hkeep => h hkeep.1),
    fun h => hheader h ▸ rfl, fun _ => ⟨_, rfl⟩⟩

theorem writersOnly_illegalOp (s : State) (w : CmdWord) : WritersOnly (.hcmd w) s (illegalOp s) := by
  simp [WritersOnly, keepsHeader, illegalOp]

theorem writersOnly_of_doMove {m : HostMove} {s t : State} (h : doMove m s = .next t) (hm : m ≠ .hreset) :
    WritersOnly m s t := by
  cases m with
  | hreset => exact absurd rfl hm
  | hwr k v => exact eq_of_next h rfl ▸ writersOnly_hwr s k v
  | hrd k => exact eq_of_next h rfl ▸ writersOnly_observe _ s _
  | hwrin i v => exact eq_of_next h rfl ▸ writersOnly_hwrin s i v
  | hrdin i => exact eq_of_next h rfl ▸ writersOnly_observe _ s _
  | hrdout i => exact eq_of_next h rfl ▸ writersOnly_observe _ s _
  | hcmd w =>
    obtain ⟨i, rfl, hexec⟩ | ⟨-, rfl⟩ := doMove_hcmd_cases h
    · exact writersOnly_exec hexec
    · exact writersOnly_illegalOp s w

/-- Settles O3: one lemma per kind of move. -/
theorem onlyTheListedWritersChangeState : Obligations.OnlyTheListedWritersChangeState :=
  fun _ _ _ => writersOnly_of_doMove

/-! ### Reset (R130) -/

/-- Settles O41: the stable cells are two of the clauses of `writersOnly_of_doMove`. -/
theorem resetZeroesRegistersAndCellsAreStable : Obligations.ResetZeroesRegistersAndCellsAreStable := by
  refine ⟨by simp [registersZero, State.reset], fun s => ⟨_, rfl, registersZero_resetBlock s⟩,
    fun m s t i h hm hcell => ?operand, fun m s t i h hm hencode hdecode => ?result⟩
  case operand =>
    obtain ⟨-, -, -, -, hwriter, -⟩ := writersOnly_of_doMove h hm
    by_contra hchanged
    obtain ⟨j, v, hmove, hj⟩ := hwriter i hchanged
    exact hcell j v hmove hj
  case result =>
    obtain ⟨-, -, -, -, -, hwriter, -⟩ := writersOnly_of_doMove h hm
    by_contra hchanged
    exact (hwriter i hchanged).elim hencode hdecode

/-- Settles O42: after a reset no cell is listed, so each reads as its byte of the new draw. -/
theorem resetDrawsBuffersAfresh : Obligations.ResetDrawsBuffersAfresh :=
  fun s => ⟨resetBlock s, rfl, rfl, fun _ => ⟨rfl, rfl⟩⟩

/-! ### An old error (60_exceptions.md section 2) -/

theorem State.encoded_status_script (s : State) (st : Byte) (ms : List HostMove) :
    State.encoded { s with status := st, script := ms } = { s.encoded with script := ms } := by
  have hseq : State.operandSeq { s with status := st, script := ms } = s.operandSeq := rfl
  simp only [State.encoded, hseq, State.setErr, State.setCrc, State.setOutLen, State.writeOut]

theorem State.decoded_status_script (s : State) (st : Byte) (ms : List HostMove) :
    State.decoded { s with status := st, script := ms } = { s.decoded with script := ms } := by
  have hseq : State.operandSeq { s with status := st, script := ms } = s.operandSeq := rfl
  simp only [State.decoded, hseq, State.setErr, State.setCrc, State.setHeader, State.setOutLen, State.writeOut,
    State.readIn]

/-- No test and no result of an operation reads `STATUS`, which every outcome overwrites, or the host's script, which
every outcome keeps. -/
theorem exec_status_script {i : Instr} {s t : State} (h : exec i s = .next t) (st : Byte) (ms : List HostMove) :
    exec i { s with status := st, script := ms } = .next { t with script := ms } := by
  cases i with
  | crcClr =>
    obtain rfl := eq_of_next h (exec_crcClr s)
    exact exec_crcClr _
  | crcUpd v =>
    obtain rfl := eq_of_next h (exec_crcUpd s v)
    exact exec_crcUpd _ v
  | cksum =>
    obtain rfl := eq_of_next h (exec_cksum s)
    exact exec_cksum _
  | encode =>
    rcases Nat.lt_or_ge 16 s.inLen.toNat with hlong | hfits
    · obtain rfl := eq_of_next h (exec_encode_of_long hlong)
      exact exec_encode_of_long (s := { s with status := st, script := ms }) hlong
    · obtain rfl := eq_of_next h (exec_encode_of_fits hfits)
      rw [← s.encoded_status_script st ms]
      exact exec_encode_of_fits hfits
  | decode =>
    rcases Nat.lt_or_ge s.inLen.toNat 4 with hshort | hlen
    · obtain rfl := eq_of_next h (exec_decode_of_short hshort)
      exact exec_decode_of_short (s := { s with status := st, script := ms }) hshort
    · by_cases hsum : crc8 (s.inSeq 0 (s.inLen.toNat - 1)) = s.readIn (s.inLen.toNat - 1)
      · obtain rfl := eq_of_next h (exec_decode_of_match hlen hsum)
        rw [← s.decoded_status_script st ms]
        exact exec_decode_of_match hlen hsum
      · obtain rfl := eq_of_next h (exec_decode_of_mismatch hlen hsum)
        exact exec_decode_of_mismatch (s := { s with status := st, script := ms }) hlen hsum

theorem exec_old_status (i : Instr) (s : State) (st : Byte) : exec i { s with status := st } = exec i s := by
  obtain ⟨t, hexec, heffect⟩ := exists_exec_opEffect i s
  obtain ⟨-, -, hscript, -⟩ := heffect.keeps
  rw [hexec]
  exact hscript ▸ exec_status_script hexec st s.script

/-- Settles O39: `exec_status_script` for a legal word, and an illegal word overwrites `STATUS` too. -/
theorem oldErrorNeverMatters : Obligations.OldErrorNeverMatters := by
  intro w s st
  obtain ⟨i, rfl⟩ | ⟨e, he⟩ := encode_or_illegal w
  · rw [doMove_hcmd_encode, doMove_hcmd_encode, exec_old_status]
  · rw [doMove_hcmd_of_illegal he, doMove_hcmd_of_illegal he]
    rfl

/-! ### Moves, runs and steps (R134) -/

theorem exists_doMove (m : HostMove) (s : State) : ∃ t, doMove m s = .next t := by
  cases m with
  | hreset => exact ⟨_, rfl⟩
  | hwr k v => exact ⟨_, rfl⟩
  | hrd k => exact ⟨_, rfl⟩
  | hwrin i v => exact ⟨_, rfl⟩
  | hrdin i => exact ⟨_, rfl⟩
  | hrdout i => exact ⟨_, rfl⟩
  | hcmd w =>
    obtain ⟨i, rfl⟩ | ⟨e, he⟩ := encode_or_illegal w
    · obtain ⟨t, hexec, -⟩ := exists_exec_opEffect i s
      exact ⟨t, (doMove_hcmd_encode i s).trans hexec⟩
    · exact ⟨_, doMove_hcmd_of_illegal he s⟩

theorem exists_runMoves (ms : List HostMove) (s : State) : ∃ t, runMoves ms s = .next t := by
  induction ms generalizing s with
  | nil => exact ⟨s, rfl⟩
  | cons m ms ih =>
    obtain ⟨t, hmove⟩ := exists_doMove m s
    obtain ⟨u, hrun⟩ := ih t
    exact ⟨u, (runMoves_cons_of_next hmove).trans hrun⟩

/-- Settles O43: a run is made of moves, and a step is one move or none. -/
theorem nothingEverStops : Obligations.NothingEverStops := by
  refine ⟨exists_doMove, exists_runMoves, fun s => ?step⟩
  case step =>
    cases hscript : s.script with
    | nil => exact ⟨s, step_of_empty hscript⟩
    | cons m ms => exact step_of_script hscript ▸ exists_doMove m (s.setScript ms)

/-- Settles O45: `step_of_script` with a command word as the first move left. -/
theorem stepRunsTheCommandWord : Obligations.StepRunsTheCommandWord := by
  have hlegal {s : State} {w : CmdWord} {i : Instr} {ms : List HostMove} (hscript : s.script = .hcmd w :: ms)
      (hw : decode w = .ok i) : step s = exec i (s.setScript ms) := by
    obtain rfl := encode_of_decode hw
    rw [step_of_script hscript, doMove_hcmd_encode]
  refine ⟨fun s w i ms => hlegal, fun s w e ms hscript hw => ?illegal, fun s w i hw => ?placed⟩
  case illegal =>
    rw [step_of_script hscript, doMove_hcmd_of_illegal hw]
    rfl
  case placed =>
    have hword : tableWord 16 w.toNat = w := by
      rw [tableWord, Nat.mod_eq_of_lt w.isLt, BitVec.ofNat_toNat, BitVec.setWidth_eq]
    have hscript : (s.withFetchWord 16 w.toNat).script = .hcmd w :: s.script := by
      rw [State.withFetchWord, hword, issueNext, State.setScript_script]
    exact hlegal hscript hw

theorem State.writePort_setScript (s : State) (k : RegNum) (v : Byte) (ms : List HostMove) :
    (s.setScript ms).writePort k v = (s.writePort k v).setScript ms := by
  unfold State.writePort
  cases regOfNumber k with
  | none => rfl
  | some r => cases r <;> rfl

/-- A move neither reads the moves still to make nor changes them. -/
theorem doMove_setScript {m : HostMove} {s t : State} (h : doMove m s = .next t) (ms : List HostMove) :
    doMove m (s.setScript ms) = .next (t.setScript ms) := by
  cases m with
  | hreset => exact eq_of_next h rfl ▸ rfl
  | hwr k v =>
    obtain rfl := eq_of_next h rfl
    rw [doMove, s.writePort_setScript k v ms]
  | hrd k => exact eq_of_next h rfl ▸ rfl
  | hwrin i v => exact eq_of_next h rfl ▸ rfl
  | hrdin i => exact eq_of_next h rfl ▸ rfl
  | hrdout i => exact eq_of_next h rfl ▸ rfl
  | hcmd w =>
    obtain ⟨i, rfl, hexec⟩ | ⟨⟨e, he⟩, rfl⟩ := doMove_hcmd_cases h
    · rw [doMove_hcmd_encode]
      exact exec_status_script hexec s.status ms
    · exact doMove_hcmd_of_illegal he _

/-- One step makes the next move and leaves the others. -/
theorem step_of_doMove {s t : State} {m : HostMove} {ms : List HostMove} (hscript : s.script = m :: ms)
    (h : doMove m (s.setScript []) = .next t) : step s = .next (t.setScript ms) :=
  (step_of_script hscript).trans (doMove_setScript h ms)

/-- A longer run of a machine goes on from where its first step left. -/
theorem run_succ_of_next {M : Host.Core} {s t : M.State} (k : Nat) (h : M.step s = .next t) :
    M.run (k + 1) s = M.run k t := by
  rw [Host.Core.run, h]

theorem core_run_succ {s t : State} (k : Nat) (h : step s = .next t) :
    Host.Core.run Sys2Proof.core (k + 1) s = Host.Core.run Sys2Proof.core k t :=
  run_succ_of_next (M := Sys2Proof.core) k h

theorem core_run_of_empty {s : State} (hscript : s.script = []) (k : Nat) :
    Host.Core.run Sys2Proof.core k s = .next s := by
  induction k with
  | zero => rfl
  | succ k ih => rw [core_run_succ k (step_of_empty hscript), ih]

/-- Stepping makes the moves of the script one after the other, and then idles. -/
theorem core_run_script {ms : List HostMove} {s t : State} (hscript : s.script = ms)
    (hrun : runMoves ms (s.setScript []) = .next t) (k : Nat) :
    t.script = [] ∧ Host.Core.run Sys2Proof.core (ms.length + k) s = .next t := by
  induction ms generalizing s with
  | nil =>
    obtain rfl : s.setScript [] = t := by simpa using hrun
    have hsame : s.setScript [] = s := by rw [← hscript]; rfl
    rw [hsame, List.length_nil, Nat.zero_add]
    exact ⟨hscript, core_run_of_empty hscript k⟩
  | cons m ms ih =>
    obtain ⟨u, hmove⟩ := exists_doMove m (s.setScript [])
    have hempty : u.setScript [] = u := eq_of_next (doMove_setScript hmove []) hmove
    rw [runMoves_cons_of_next hmove, ← hempty] at hrun
    rw [List.length_cons, Nat.succ_add, core_run_succ _ (step_of_doMove hscript hmove)]
    exact ih (s := u.setScript ms) rfl hrun

/-- Settles O44: `core_run_script` for the state's own script. -/
theorem runMakesTheScriptInOrder : Obligations.RunMakesTheScriptInOrder := by
  intro s k
  obtain ⟨t, hrun⟩ := exists_runMoves s.script (s.setScript [])
  exact ⟨t, hrun, core_run_script rfl hrun k⟩

/-! ### The cells an operation reads (10_state.md section 3) -/

/-- Two states with the same registers and the same bytes in `OUT`. -/
def ReadsAlike (s s' : State) : Prop := sameRegisters s s' ∧ ∀ j, s'.readOut j = s.readOut j

/-- Two states with the same operand sequence in `IN`. -/
def SameOperand (s s' : State) : Prop := s'.inLen = s.inLen ∧ ∀ j < s.inLen.toNat, s'.readIn j = s.readIn j

theorem ReadsAlike.update {s s' : State} (h : ReadsAlike s s') (st : Byte) {c c' l l' : Byte} (hc : c' = c)
    (hl : l' = l) :
    ReadsAlike { s with status := st, outLen := l, crc := c } { s' with status := st, outLen := l', crc := c' } := by
  obtain ⟨⟨-, -, hdev, hcmd, hlen, -, hrdev, hrcmd, hrrsv⟩, hout⟩ := h
  exact ⟨⟨rfl, hc, hdev, hcmd, hlen, hl, hrdev, hrcmd, hrrsv⟩, hout⟩

theorem SameOperand.inSeq {s s' : State} (h : SameOperand s s') {n : Nat} (hn : n ≤ s.inLen.toNat) :
    s'.inSeq 0 n = s.inSeq 0 n := by
  obtain ⟨-, hcells⟩ := h
  refine State.inSeq_congr fun i hi => ?_
  rw [Nat.zero_add]
  exact hcells i (Nat.lt_of_lt_of_le hi hn)

theorem SameOperand.operandSeq {s s' : State} (h : SameOperand s s') : s'.operandSeq = s.operandSeq := by
  rw [State.operandSeq, h.1, h.inSeq le_rfl, State.operandSeq]

theorem ReadsAlike.encoded {s s' : State} (h : ReadsAlike s s') (hop : SameOperand s s')
    (hfits : s.inLen.toNat ≤ 16) : ReadsAlike s.encoded s'.encoded := by
  obtain ⟨⟨-, -, hdev, hcmd, hlen, -, hrdev, hrcmd, hrrsv⟩, hout⟩ := h
  have hcrc : s'.encoded.crc = s.encoded.crc := by
    rw [State.encoded_crc, State.encoded_crc, hdev, hcmd, hop.operandSeq]
  have hfits' : s'.inLen.toNat ≤ 16 := by rwa [hlen]
  refine ⟨⟨rfl, hcrc, hdev, hcmd, hlen, rfl, hrdev, hrcmd, hrrsv⟩, fun j => ?_⟩
  rcases Nat.lt_or_ge j 20 with hj | hj
  · rw [State.encoded_readOut_of_lt hfits hj, State.encoded_readOut_of_lt hfits' hj, hdev, hcmd, hop.operandSeq]
  · rw [State.encoded_readOut_of_le hfits hj, State.encoded_readOut_of_le hfits' hj, hout]

theorem ReadsAlike.decoded {s s' : State} (h : ReadsAlike s s') (hop : SameOperand s s')
    (h4 : 4 ≤ s.inLen.toNat) : ReadsAlike s.decoded s'.decoded := by
  obtain ⟨⟨-, -, hdev, hcmd, hlen, -, -, -, -⟩, hout⟩ := h
  obtain ⟨-, hcells⟩ := hop
  have hcrc : s'.decoded.crc = s.decoded.crc := by
    rw [State.decoded_crc, State.decoded_crc, hlen, hcells _ (by omega)]
  have houtLen : s'.decoded.outLen = s.decoded.outLen := by rw [State.decoded_outLen, State.decoded_outLen, hlen]
  refine ⟨⟨rfl, hcrc, hdev, hcmd, hlen, houtLen, hcells 0 (by omega), hcells 1 (by omega), hcells 2 (by omega)⟩,
    fun j => ?_⟩
  rcases Nat.lt_or_ge j (s.inLen.toNat - 4) with hj | hj
  · rw [State.decoded_readOut_of_lt hj, State.decoded_readOut_of_lt (hlen.symm ▸ hj), hcells _ (by omega)]
  · rw [State.decoded_readOut_of_le hj, State.decoded_readOut_of_le (hlen.symm ▸ hj), hout]

theorem exec_readsAlike {i : Instr} {s s' t : State} (h : ReadsAlike s s') (hop : SameOperand s s')
    (hexec : exec i s = .next t) : ∃ t', exec i s' = .next t' ∧ ReadsAlike t t' := by
  obtain ⟨⟨-, hcrc, -, -, -, houtLen, -⟩, -⟩ := id h
  obtain ⟨hlen, hcells⟩ := id hop
  cases i with
  | crcClr =>
    obtain rfl := eq_of_next hexec (exec_crcClr s)
    exact ⟨_, exec_crcClr s', h.update 0x00#8 rfl houtLen⟩
  | crcUpd v =>
    obtain rfl := eq_of_next hexec (exec_crcUpd s v)
    exact ⟨_, exec_crcUpd s' v, h.update 0x00#8 (by rw [hcrc]) houtLen⟩
  | cksum =>
    obtain rfl := eq_of_next hexec (exec_cksum s)
    exact ⟨_, exec_cksum s', h.update 0x00#8 (by rw [hop.operandSeq]) houtLen⟩
  | encode =>
    rcases Nat.lt_or_ge 16 s.inLen.toNat with hlong | hfits
    · obtain rfl := eq_of_next hexec (exec_encode_of_long hlong)
      exact ⟨_, exec_encode_of_long (hlen.symm ▸ hlong), h.update 0x01#8 hcrc rfl⟩
    · obtain rfl := eq_of_next hexec (exec_encode_of_fits hfits)
      exact ⟨_, exec_encode_of_fits (hlen.symm ▸ hfits), h.encoded hop hfits⟩
  | decode =>
    rcases Nat.lt_or_ge s.inLen.toNat 4 with hshort | h4
    · obtain rfl := eq_of_next hexec (exec_decode_of_short hshort)
      exact ⟨_, exec_decode_of_short (hlen.symm ▸ hshort), h.update 0x02#8 hcrc rfl⟩
    · have hsum' : crc8 (s'.inSeq 0 (s'.inLen.toNat - 1)) = crc8 (s.inSeq 0 (s.inLen.toNat - 1)) := by
        rw [hlen, hop.inSeq (Nat.sub_le ..)]
      have hlast : s'.readIn (s'.inLen.toNat - 1) = s.readIn (s.inLen.toNat - 1) := by
        rw [hlen, hcells _ (by omega)]
      have h4' : 4 ≤ s'.inLen.toNat := hlen.symm ▸ h4
      by_cases hsum : crc8 (s.inSeq 0 (s.inLen.toNat - 1)) = s.readIn (s.inLen.toNat - 1)
      · obtain rfl := eq_of_next hexec (exec_decode_of_match h4 hsum)
        exact ⟨_, exec_decode_of_match h4' (by rw [hsum', hlast, hsum]), h.decoded hop h4⟩
      · obtain rfl := eq_of_next hexec (exec_decode_of_mismatch h4 hsum)
        exact ⟨_, exec_decode_of_mismatch h4' (by rwa [hsum', hlast]), h.update 0x03#8 hsum' rfl⟩

/-- Settles O4: `exec_readsAlike`, for every operation and outcome. -/
theorem cellsAboveInLenNeverMatter : Obligations.CellsAboveInLenNeverMatter := by
  intro i s s' t hregs hcells hout hexec
  obtain ⟨-, -, -, -, hlen, -⟩ := id hregs
  exact exec_readsAlike ⟨hregs, hout⟩ ⟨hlen, hcells⟩ hexec

end Sys2Proof.Machine
end

section
/-! PROOFS, 40_checksum.md section 2: the register is linear in the register before and the bits taken in. From this
follow the byte-wise form, the residue and linearity of the checksum; read as a polynomial, the register is a
remainder. -/

open Sys2Proof.Claims

namespace Sys2Proof.Machine

/-! ### The bit step is linear -/

/-- What the bit step adds to the shifted register. -/
def feedback (t : Bool) : Byte := if t then 0x07#8 else 0x00#8

theorem feedback_xor (t u : Bool) : feedback (t ^^ u) = feedback t ^^^ feedback u := by
  cases t <;> cases u <;> decide

theorem crcBit_eq_xor_feedback (r : Byte) (b : Bool) : crcBit r b = r <<< 1 ^^^ feedback (r.getLsbD 7 ^^ b) := by
  rw [crcBit_eq, feedback]
  split_ifs
  · rfl
  · exact BitVec.xor_zero.symm

theorem crcBit_xor (r u : Byte) (b c : Bool) : crcBit (r ^^^ u) (b ^^ c) = crcBit r b ^^^ crcBit u c := by
  have htop : ((r ^^^ u).getLsbD 7 ^^ (b ^^ c)) = ((r.getLsbD 7 ^^ b) ^^ (u.getLsbD 7 ^^ c)) := by
    simp only [BitVec.getLsbD_xor, Bool.xor_assoc, Bool.xor_left_comm]
  simp only [crcBit_eq_xor_feedback, htop, feedback_xor, BitVec.shiftLeft_xor_distrib]
  ac_rfl

theorem crcByte_xor (r u v w : Byte) : crcByte (r ^^^ u) (v ^^^ w) = crcByte r v ^^^ crcByte u w := by
  simp only [crcByte, BitVec.getLsbD_xor, crcBit_xor]

/-! ### Zero bits only move the register on, and never to zero -/

/-- The register after a zero bit. -/
def zeroBit (r : Byte) : Byte := crcBit r false

theorem zeroBit_xor (r u : Byte) : zeroBit (r ^^^ u) = zeroBit r ^^^ zeroBit u := crcBit_xor r u false false

theorem zeroBit_zero : zeroBit 0x00#8 = 0x00#8 := by decide

/-- A register that a zero bit takes to zero was zero: `0x07` is odd, and a shifted register is even. -/
theorem eq_zero_of_zeroBit {r : Byte} (h : zeroBit r = 0x00#8) : r = 0x00#8 := by
  have hnat := crcBit_toNat r false
  rw [← zeroBit, h, Bool.xor_false] at hnat
  apply BitVec.eq_of_toNat_eq
  split_ifs at hnat with htop
  · have hodd : 2 * r.toNat % 256 = 7 := Nat.xor_eq_zero_iff.1 hnat.symm
    omega
  · simp only [decide_eq_true_eq] at htop
    simp only [BitVec.toNat_ofNat] at hnat ⊢
    omega

theorem zeroBit_injective : Function.Injective zeroBit := by
  intro r u h
  have hdiff : zeroBit (r ^^^ u) = 0x00#8 := by rw [zeroBit_xor, h, BitVec.xor_self]
  exact BitVec.xor_eq_zero_iff.1 (eq_zero_of_zeroBit hdiff)

theorem zeroBit_iterate_xor (n : Nat) (r u : Byte) : zeroBit^[n] (r ^^^ u) = zeroBit^[n] r ^^^ zeroBit^[n] u := by
  induction n generalizing r u with
  | zero => rfl
  | succ n ih => rw [Function.iterate_succ_apply, zeroBit_xor, ih]; rfl

theorem zeroBit_iterate_eq_zero_iff (n : Nat) {r : Byte} : zeroBit^[n] r = 0x00#8 ↔ r = 0x00#8 :=
  (zeroBit_injective.iterate n).eq_iff' (Function.iterate_fixed zeroBit_zero n)

/-! ### The byte step (the spec's "byte-wise form") and the residue -/

theorem crcByte_zero_right (r : Byte) : crcByte r 0x00#8 = zeroBit^[8] r := rfl

/-- Adding a byte step that gives zero moves the input byte into the register. -/
theorem crcByte_eq_iterate (r v : Byte) : crcByte r v = zeroBit^[8] (r ^^^ v) := by
  calc
    crcByte r v = crcByte r v ^^^ crcByte v v := by rw [crcByte_self, BitVec.xor_zero]
    _ = crcByte (r ^^^ v) (v ^^^ v) := (crcByte_xor r v v v).symm
    _ = zeroBit^[8] (r ^^^ v) := by rw [BitVec.xor_self, crcByte_zero_right]

theorem crcByte_eq_zero_iff {r v : Byte} : crcByte r v = 0x00#8 ↔ v = r := by
  rw [crcByte_eq_iterate, zeroBit_iterate_eq_zero_iff, BitVec.xor_eq_zero_iff, eq_comm]

/-- Settles O14: `crcByte_eq_iterate`, for the register and for a zero register. -/
theorem byteStepIsTableOfXor : Obligations.ByteStepIsTableOfXor := by
  refine fun r v => ⟨crcByte_eq_iterate r v, ?_⟩
  rw [crcByte_eq_iterate, crcByte_eq_iterate, BitVec.zero_xor]

/-- Settles O15: the fold is still at its start after the zeros. -/
theorem leadingZerosAreInvisible : Obligations.LeadingZerosAreInvisible := by
  refine ⟨fun k s => ?_, crc8_zeros, by decide, by decide⟩
  calc
    crc8 (zeros k ++ s) = s.foldl crcByte (crc8 (zeros k)) := List.foldl_append
    _ = crc8 s := by rw [crc8_zeros]; rfl

/-- Settles O16: the last byte step gives zero for a byte equal to the register alone. -/
theorem checksumResidueIsZero : Obligations.ChecksumResidueIsZero := by
  intro s v
  rw [crc8_concat, crcByte_eq_zero_iff]

theorem foldl_crcByte_xor {a b : List Byte} (hlen : a.length = b.length) (r u : Byte) :
    (List.zipWith (· ^^^ ·) a b).foldl crcByte (r ^^^ u) = a.foldl crcByte r ^^^ b.foldl crcByte u := by
  induction a generalizing b r u with
  | nil =>
    obtain rfl : b = [] := List.length_eq_zero_iff.1 hlen.symm
    rfl
  | cons v a ih =>
    cases b with
    | nil => cases hlen
    | cons w b =>
      simp only [List.zipWith_cons_cons, List.foldl_cons, crcByte_xor]
      exact ih (Nat.succ.inj hlen) _ _

/-- Settles O17: the fold from `INIT`, which is zero. -/
theorem checksumIsLinear : Obligations.ChecksumIsLinear := fun _ _ hlen => foldl_crcByte_xor hlen 0x00#8 0x00#8

/-! ### The register after a number of stream bits -/

/-- The register after the first `n` bits of a stream, from zero. -/
def crcBits (P : Nat → Bool) : Nat → Byte
  | 0 => 0x00#8
  | n + 1 => crcBit (crcBits P n) (P n)

theorem crcBits_succ (P : Nat → Bool) (n : Nat) : crcBits P (n + 1) = crcBit (crcBits P n) (P n) := rfl

theorem crcBits_congr {P Q : Nat → Bool} {n : Nat} (h : ∀ p < n, P p = Q p) : crcBits P n = crcBits Q n := by
  induction n with
  | zero => rfl
  | succ n ih => rw [crcBits_succ, crcBits_succ, ih fun p hp => h p (by omega), h n (by omega)]

theorem crcBits_xor (P Q : Nat → Bool) (n : Nat) : crcBits (fun p => P p ^^ Q p) n = crcBits P n ^^^ crcBits Q n := by
  induction n with
  | zero => exact (BitVec.xor_zero (x := 0x00#8)).symm
  | succ n ih => rw [crcBits_succ, crcBits_succ, crcBits_succ, ih, crcBit_xor]

/-- Zero bits after the first `a` only move the register on. -/
theorem crcBits_add_of_zeros {P : Nat → Bool} {a n : Nat} (h : ∀ p, a ≤ p → p < a + n → P p = false) :
    crcBits P (a + n) = zeroBit^[n] (crcBits P a) := by
  induction n with
  | zero => rfl
  | succ n ih =>
    rw [← Nat.add_assoc, crcBits_succ, ih fun p hp hpn => h p hp (by omega), h (a + n) (by omega) (by omega),
      Function.iterate_succ_apply', zeroBit]

theorem crcBits_of_zeros {P : Nat → Bool} {n : Nat} (h : ∀ p < n, P p = false) : crcBits P n = 0x00#8 := by
  have hrun := crcBits_add_of_zeros (P := P) (a := 0) (n := n) fun p _ hp => h p (by omega)
  rw [Nat.zero_add] at hrun
  exact hrun.trans ((zeroBit_iterate_eq_zero_iff n).2 rfl)

/-- Eight stream bits are one byte step. -/
theorem crcBits_add_eight {P : Nat → Bool} {a : Nat} {v : Byte} (h : ∀ k < 8, v.getLsbD (7 - k) = P (a + k)) :
    crcBits P (a + 8) = crcByte (crcBits P a) v := by
  simp only [crcBits, crcByte]
  rw [h 0 (by decide), h 1 (by decide), h 2 (by decide), h 3 (by decide), h 4 (by decide), h 5 (by decide),
    h 6 (by decide), h 7 (by decide)]
  rfl

theorem streamBit_append_left {s : List Byte} (u : List Byte) {p : Nat} (hp : p < 8 * s.length) :
    streamBit (s ++ u) p = streamBit s p := by
  rw [streamBit, streamBit, byteAt_append_left u (by omega)]

/-- The bits of byte `j`, top bit first, are the stream positions from `8 * j` on. -/
theorem streamBit_mul_add (s : List Byte) (j : Nat) {k : Nat} (hk : k < 8) :
    streamBit s (8 * j + k) = (byteAt s j).getLsbD (7 - k) := by
  have hbyte : (8 * j + k) / 8 = j := by omega
  have hbit : (8 * j + k) % 8 = k := by omega
  rw [streamBit, hbyte, hbit]

theorem streamBit_concat (s : List Byte) (v : Byte) {k : Nat} (hk : k < 8) :
    streamBit (s ++ [v]) (8 * s.length + k) = v.getLsbD (7 - k) := by
  rw [streamBit_mul_add _ _ hk, byteAt_concat_length]

/-- The checksum is the register after all bits of the stream. -/
theorem crc8_eq_crcBits (s : List Byte) : crc8 s = crcBits (streamBit s) (8 * s.length) := by
  induction s using List.reverseRecOn with
  | nil => rfl
  | append_singleton s v ih =>
    have hbefore : crcBits (streamBit (s ++ [v])) (8 * s.length) = crcBits (streamBit s) (8 * s.length) :=
      crcBits_congr fun p hp => streamBit_append_left [v] hp
    rw [crc8_concat, ih, List.length_append, List.length_singleton, Nat.mul_succ,
      crcBits_add_eight fun k hk => (streamBit_concat s v hk).symm, hbefore]

end Sys2Proof.Machine
end

section
/-! PROOFS, 40_checksum.md section 2, "Polynomial reading": over the field of two elements a bit step multiplies by
`x`, adds the bit at `x^8` and subtracts a multiple of the generator, so the register is a remainder. -/

open Sys2Proof.Claims

namespace Sys2Proof.Machine

open Polynomial

/-- The generator `x^8 + x^2 + x + 1`. -/
noncomputable def generator : (ZMod 2)[X] := X ^ 8 + X ^ 2 + X + 1

/-- The polynomial of degree below 8 whose coefficients are the bits of a byte. -/
noncomputable def bytePoly (r : Byte) : (ZMod 2)[X] := ∑ i ∈ Finset.range 8, if r.getLsbD i then X ^ i else 0

/-- The polynomial of the first `n` bits of a stream, first bit highest. -/
noncomputable def streamPoly (P : Nat → Bool) (n : Nat) : (ZMod 2)[X] :=
  ∑ p ∈ Finset.range n, if P p then X ^ (n - 1 - p) else 0

theorem ite_xor_eq_add (b c : Bool) (f : (ZMod 2)[X]) :
    (if b ^^ c then f else 0) = (if b then f else 0) + (if c then f else 0) := by
  cases b <;> cases c <;> simp [CharTwo.add_self_eq_zero]

theorem bytePoly_xor (r u : Byte) : bytePoly (r ^^^ u) = bytePoly r + bytePoly u := by
  simp only [bytePoly, BitVec.getLsbD_xor, ite_xor_eq_add, Finset.sum_add_distrib]

theorem bytePoly_zero : bytePoly 0x00#8 = 0 := by
  simp [bytePoly]

/-- A shift multiplies by `x` and drops the bit that would stand at `x^8`. -/
theorem bytePoly_shiftLeft (r : Byte) :
    bytePoly (r <<< 1) + (if r.getLsbD 7 then X ^ 8 else 0) = X * bytePoly r := by
  have hlow : (r <<< 1).getLsbD 0 = false := by simp
  have hnext : ∀ i ∈ Finset.range 7, (if (r <<< 1).getLsbD (i + 1) then (X : (ZMod 2)[X]) ^ (i + 1) else 0) =
      if r.getLsbD i then X ^ (i + 1) else 0 := fun i hi => by
    have hlt : i + 1 < 8 := Nat.succ_lt_succ (Finset.mem_range.1 hi)
    have hbit : (r <<< 1).getLsbD (i + 1) = r.getLsbD i := by
      simp [BitVec.getLsbD_shiftLeft, hlt, -BitVec.getLsbD_eq_getElem]
    rw [hbit]
  calc
    bytePoly (r <<< 1) + (if r.getLsbD 7 then X ^ 8 else 0)
      = (∑ i ∈ Finset.range 7, if r.getLsbD i then X ^ (i + 1) else 0) + if r.getLsbD 7 then X ^ 8 else 0 := by
        rw [bytePoly, Finset.sum_range_succ', hlow, Finset.sum_congr rfl hnext]
        simp
    _ = X * bytePoly r := by
        rw [bytePoly, Finset.mul_sum, Finset.sum_range_succ _ 7]
        simp only [mul_ite, mul_zero, pow_succ']

theorem bytePoly_poly : bytePoly 0x07#8 = X ^ 2 + X + 1 := by
  simp [bytePoly, Finset.sum_range_succ]
  ring

theorem generator_eq_add_bytePoly : generator = X ^ 8 + bytePoly 0x07#8 := by
  rw [generator, bytePoly_poly]
  ring

theorem bytePoly_feedback (t : Bool) : bytePoly (feedback t) = if t then bytePoly 0x07#8 else 0 := by
  rw [feedback, apply_ite bytePoly, bytePoly_zero]

/-- The bit that leaves at `x^8`, against the bit taken in, decides whether the generator is subtracted. -/
theorem bytePoly_crcBit (r : Byte) (b : Bool) :
    X * bytePoly r + (if b then X ^ 8 else 0) =
      (if r.getLsbD 7 ^^ b then generator else 0) + bytePoly (crcBit r b) := by
  rw [crcBit_eq_xor_feedback, bytePoly_xor, bytePoly_feedback, ← bytePoly_shiftLeft, add_assoc, ← ite_xor_eq_add]
  split_ifs
  · have htwice : bytePoly 0x07#8 + bytePoly 0x07#8 = 0 := CharTwo.add_self_eq_zero _
    rw [generator_eq_add_bytePoly]
    linear_combination -htwice
  · rw [zero_add, add_zero]

theorem streamPoly_succ (P : Nat → Bool) (n : Nat) :
    streamPoly P (n + 1) = X * streamPoly P n + if P n then 1 else 0 := by
  have hbefore : ∀ p ∈ Finset.range n, (if P p then (X : (ZMod 2)[X]) ^ (n - p) else 0) =
      X * if P p then X ^ (n - 1 - p) else 0 := fun p hp => by
    have hexp : n - p = n - 1 - p + 1 := by
      have := Finset.mem_range.1 hp
      omega
    rw [mul_ite, mul_zero, hexp, pow_succ']
  rw [streamPoly, streamPoly, Finset.mul_sum, Finset.sum_range_succ, Nat.add_sub_cancel,
    Finset.sum_congr rfl hbefore, Nat.sub_self, pow_zero]

/-- The register is the remainder of the stream times `x^8` by the generator. -/
theorem exists_streamPoly_mul (P : Nat → Bool) (n : Nat) :
    ∃ q, streamPoly P n * X ^ 8 = q * generator + bytePoly (crcBits P n) := by
  induction n with
  | zero => exact ⟨0, by simp [streamPoly, crcBits, bytePoly_zero]⟩
  | succ n ih =>
    obtain ⟨q, hq⟩ := ih
    refine ⟨X * q + if (crcBits P n).getLsbD 7 ^^ P n then 1 else 0, ?_⟩
    have hstep := bytePoly_crcBit (crcBits P n) (P n)
    calc
      streamPoly P (n + 1) * X ^ 8 = X * (streamPoly P n * X ^ 8) + (if P n then X ^ 8 else 0) := by
        rw [streamPoly_succ, add_mul, ite_mul, one_mul, zero_mul, mul_assoc]
      _ = X * q * generator + (X * bytePoly (crcBits P n) + if P n then X ^ 8 else 0) := by
        rw [hq, mul_add, mul_assoc, add_assoc]
      _ = (X * q + if (crcBits P n).getLsbD 7 ^^ P n then 1 else 0) * generator + bytePoly (crcBits P (n + 1)) := by
        rw [hstep, add_mul, ite_mul, one_mul, zero_mul, add_assoc, crcBits_succ]

/-- Settles O18: the checksum is the register after the whole stream. -/
theorem checksumIsThePolynomialRemainder : Obligations.ChecksumIsThePolynomialRemainder := by
  intro s
  rw [crc8_eq_crcBits]
  exact exists_streamPoly_mul (streamBit s) (8 * s.length)

/-! ### The generator, and so every multiple of it, is zero at 1 -/

theorem eval_one_generator : generator.eval 1 = 0 := by
  simp only [generator, eval_add, eval_pow, eval_X, eval_one, one_pow]
  rfl

theorem eval_one_streamPoly (P : Nat → Bool) (n : Nat) :
    (streamPoly P n).eval 1 = ((List.range n).countP P : ZMod 2) := by
  induction n with
  | zero => simp [streamPoly]
  | succ n ih =>
    rw [streamPoly_succ, eval_add, eval_mul, eval_X, one_mul, ih, List.range_succ, List.countP_append, Nat.cast_add,
      List.countP_singleton]
    split_ifs <;> simp

theorem crcBits_ne_zero_of_odd {P : Nat → Bool} {n : Nat} (hodd : (List.range n).countP P % 2 = 1) :
    crcBits P n ≠ 0x00#8 := by
  intro hzero
  obtain ⟨q, hq⟩ := exists_streamPoly_mul P n
  have heval := congrArg (eval 1) hq
  rw [hzero, bytePoly_zero, add_zero, eval_mul, eval_mul, eval_one_generator, mul_zero, eval_pow, eval_X, one_pow,
    mul_one, eval_one_streamPoly, ZMod.natCast_eq_zero_iff] at heval
  omega

end Sys2Proof.Machine
end

section
/-! PROOFS, 41_frame_codec.md section 1 ("Acceptance as a residue") and 40_checksum.md section 2 ("What the checksum
detects"): a changed sequence is accepted exactly when the register is zero after the bits of the difference. -/

open Sys2Proof.Claims

namespace Sys2Proof.Machine

/-! ### Acceptance as a residue -/

/-- The checksum of a sequence is zero exactly when its last byte is the checksum of the others. -/
theorem crc8_eq_zero_iff {s : List Byte} (hs : 0 < s.length) :
    crc8 s = 0x00#8 ↔ crc8 (s.take (s.length - 1)) = byteAt s (s.length - 1) := by
  conv_lhs => rw [eq_take_concat_byteAt hs]
  rw [checksumResidueIsZero, eq_comm]

theorem exists_parse_eq_ok_iff (s : List Byte) : (∃ r, parse s = .ok r) ↔ 4 ≤ s.length ∧ crc8 s = 0x00#8 := by
  constructor
  · rintro ⟨r, hr⟩
    obtain ⟨hlen, hsum, -⟩ := parse_eq_ok_iff.1 hr
    exact ⟨hlen, (crc8_eq_zero_iff (by omega)).2 hsum⟩
  · rintro ⟨hlen, hzero⟩
    exact ⟨_, parse_of_match hlen ((crc8_eq_zero_iff (by omega)).1 hzero)⟩

/-- Settles O31: `exists_parse_eq_ok_iff`, where the length is given. -/
theorem acceptanceIsZeroResidue : Obligations.AcceptanceIsZeroResidue := by
  intro s hlen
  rw [exists_parse_eq_ok_iff, and_iff_right hlen]

/-! ### A difference of two sequences -/

/-- `g` differs from `f` in exactly the stream positions that `P` marks. -/
def Flips (P : Nat → Bool) (f g : List Byte) : Prop :=
  g.length = f.length ∧ ∀ p < 8 * f.length, streamBit g p = (streamBit f p ^^ P p)

theorem crc8_of_flips {P : Nat → Bool} {f g : List Byte} (h : Flips P f g) :
    crc8 g = crc8 f ^^^ crcBits P (8 * f.length) := by
  obtain ⟨hlen, hbits⟩ := h
  rw [crc8_eq_crcBits, hlen, crcBits_congr hbits, crcBits_xor, ← crc8_eq_crcBits]

/-- Against an accepted sequence, the difference alone decides. -/
theorem crc8_of_flips_of_accepted {P : Nat → Bool} {f g : List Byte} {r : Parsed} (h : Flips P f g)
    (hf : parse f = .ok r) : 4 ≤ g.length ∧ crc8 g = crcBits P (8 * f.length) := by
  obtain ⟨hlen, hzero⟩ := (exists_parse_eq_ok_iff f).1 ⟨r, hf⟩
  rw [crc8_of_flips h, hzero, BitVec.zero_xor, h.1]
  exact ⟨hlen, rfl⟩

theorem accepted_iff_of_flips {P : Nat → Bool} {f g : List Byte} {r : Parsed} (h : Flips P f g)
    (hf : parse f = .ok r) : (∃ r', parse g = .ok r') ↔ crcBits P (8 * f.length) = 0x00#8 := by
  obtain ⟨hlen, hcrc⟩ := crc8_of_flips_of_accepted h hf
  rw [exists_parse_eq_ok_iff, hcrc, and_iff_right hlen]

theorem mismatch_of_flips {P : Nat → Bool} {f g : List Byte} {r : Parsed} (h : Flips P f g)
    (hf : parse f = .ok r) (hcaught : crcBits P (8 * f.length) ≠ 0x00#8) : parse g = .error .checksumMismatch := by
  obtain ⟨hlen, hcrc⟩ := crc8_of_flips_of_accepted h hf
  refine parse_of_mismatch hlen fun hsum => hcaught ?_
  rw [← hcrc, crc8_eq_zero_iff (by omega)]
  exact hsum

theorem getLsbD_top_shiftRight :
    ∀ n < 8, ∀ k < 8, (0x80#8 >>> n).getLsbD (7 - k) = decide (k = n) := by decide

/-- The fold of `diffByte` over the first `n` positions of a byte sets the bits marked among them. -/
theorem getLsbD_foldl_flip (Q : Nat → Bool) {n k : Nat} (hn : n ≤ 8) (hk : k < 8) :
    ((List.range n).foldl (fun x j => if Q j then x ^^^ (0x80#8 >>> j) else x) 0x00#8).getLsbD (7 - k) =
      (decide (k < n) && Q k) := by
  induction n with
  | zero => simp
  | succ n ih =>
    have hbit := getLsbD_top_shiftRight n hn k hk
    rw [List.range_succ, List.foldl_append, List.foldl_cons, List.foldl_nil, apply_ite (BitVec.getLsbD · (7 - k)),
      BitVec.getLsbD_xor, ih (by omega), hbit]
    rcases eq_or_ne k n with rfl | hne
    · simp
    · have hlt : k < n + 1 ↔ k < n := by omega
      simp [hne, hlt]

theorem getLsbD_diffByte (P : Nat → Bool) (j : Nat) {k : Nat} (hk : k < 8) :
    (diffByte P j).getLsbD (7 - k) = P (8 * j + k) := by
  rw [diffByte, getLsbD_foldl_flip (fun k => P (8 * j + k)) le_rfl hk, decide_eq_true hk, Bool.true_and]

theorem byteAt_differAt {f : List Byte} (P : Nat → Bool) {j : Nat} (hj : j < f.length) :
    byteAt (differAt f P) j = byteAt f j ^^^ diffByte P j := by
  rw [byteAt_of_lt hj, byteAt_of_lt (by rwa [differAt, List.length_mapIdx])]
  exact List.getElem_mapIdx ..

theorem flips_differAt (f : List Byte) (P : Nat → Bool) : Flips P f (differAt f P) := by
  refine ⟨List.length_mapIdx, fun p hp => ?_⟩
  rw [streamBit, byteAt_differAt P (by omega), BitVec.getLsbD_xor, getLsbD_diffByte P _ (by omega), Nat.div_add_mod,
    streamBit]

/-! ### Bursts (a), (b) -/

/-- Bits confined to 8 consecutive positions are one nonzero byte step, and later zero bits do not undo it. -/
theorem crcBits_ne_zero_of_window {P : Nat → Bool} {a q n : Nat}
    (hwindow : ∀ k < a + 8 + n, P k = true → a ≤ k ∧ k < a + 8) (hq : P q = true) (hqn : q < a + 8 + n) :
    crcBits P (a + 8 + n) ≠ 0x00#8 := by
  have hoff (k : Nat) (hk : k < a + 8 + n) (hout : k < a ∨ a + 8 ≤ k) : P k = false := by
    by_contra hon
    have := hwindow k hk (Bool.eq_true_of_not_eq_false hon)
    omega
  have hbyte : ∀ k < 8, (diffByte (fun k => P (a + k)) 0).getLsbD (7 - k) = P (a + k) := fun k hk => by
    rw [getLsbD_diffByte _ _ hk, Nat.mul_zero, Nat.zero_add]
  rw [crcBits_add_of_zeros fun k hk hkn => hoff k hkn (.inr hk), ne_eq, zeroBit_iterate_eq_zero_iff,
    crcBits_add_eight hbyte, crcBits_of_zeros fun k hk => hoff k (by omega) (.inl hk), crcByte_eq_zero_iff]
  intro hzero
  obtain ⟨hlow, hhigh⟩ := hwindow q hqn hq
  have hbit := hbyte (q - a) (by omega)
  rw [hzero, Nat.add_sub_cancel' hlow, hq] at hbit
  simp at hbit

/-- A burst whose window runs over the end lies in the last 8 positions. -/
theorem crcBits_ne_zero_of_burst {P : Nat → Bool} {a q n : Nat} (hn : 8 ≤ n)
    (hwindow : ∀ k < n, P k = true → a ≤ k ∧ k < a + 8) (hq : P q = true) (hqn : q < n) : crcBits P n ≠ 0x00#8 := by
  rcases Nat.le_total (a + 8) n with hle | hle
  · obtain ⟨m, rfl⟩ := Nat.exists_eq_add_of_le hle
    exact crcBits_ne_zero_of_window hwindow hq hqn
  · obtain ⟨b, rfl⟩ := Nat.exists_eq_add_of_le' hn
    refine crcBits_ne_zero_of_window (n := 0) (fun k hk hon => ?_) hq hqn
    have := hwindow k hk hon
    omega

/-- Settles O20: `crcBits_ne_zero_of_burst` for the marked positions inside the sequence. -/
theorem shortBurstIsCaught : Obligations.ShortBurstIsCaught := by
  rintro f r P p hf hwindow ⟨q, hq, hqn⟩
  obtain ⟨hlen, -, -⟩ := parse_eq_ok_iff.1 hf
  exact mismatch_of_flips (flips_differAt f P) hf
    (crcBits_ne_zero_of_burst (by omega) (fun k _ => hwindow k) hq hqn)

theorem byteAt_set_of_ne (f : List Byte) (v : Byte) {i j : Nat} (hne : i ≠ j) : byteAt (f.set j v) i = byteAt f i := by
  simp [byteAt, List.getElem?_set_ne (Ne.symm hne)]

theorem byteAt_set_self {f : List Byte} (v : Byte) {j : Nat} (hj : j < f.length) : byteAt (f.set j v) j = v := by
  simp [byteAt, hj]

theorem exists_getLsbD_ne {v w : Byte} (h : v ≠ w) : ∃ k < 8, v.getLsbD (7 - k) ≠ w.getLsbD (7 - k) := by
  by_contra hsame
  push Not at hsame
  refine h (BitVec.eq_of_getLsbD_eq fun i hi => ?_)
  have hbit := hsame (7 - i) (by omega)
  rwa [Nat.sub_sub_self (by omega)] at hbit

/-- Settles O19: one changed byte is a burst of its 8 positions. -/
theorem oneByteCorruptionIsCaught : Obligations.OneByteCorruptionIsCaught := by
  intro f r j v hf hj hv
  obtain ⟨hlen, -, -⟩ := parse_eq_ok_iff.1 hf
  obtain ⟨k, hk, hbit⟩ := exists_getLsbD_ne hv
  have hflips : Flips (fun p => streamBit f p ^^ streamBit (f.set j v) p) f (f.set j v) :=
    ⟨List.length_set, fun p _ => by simp⟩
  refine mismatch_of_flips hflips hf (crcBits_ne_zero_of_burst (a := 8 * j) (q := 8 * j + k) (by omega)
    (fun p _ hon => ?_) ?_ (by omega))
  · by_contra hout
    have hne : p / 8 ≠ j := by omega
    simp [streamBit, byteAt_set_of_ne f v hne] at hon
  · rw [streamBit_mul_add _ _ hk, streamBit_mul_add _ _ hk, byteAt_set_self v hj, Bool.xor_iff_ne]
    exact hbit.symm

/-! ### Odd differences (c) -/

/-- Settles O21: `crcBits_ne_zero_of_odd` for the positions of the sequence. -/
theorem oddDifferenceIsCaught : Obligations.OddDifferenceIsCaught := by
  intro f r P hf hodd
  exact mismatch_of_flips (flips_differAt f P) hf (crcBits_ne_zero_of_odd hodd)

/-! ### Two and four bits (d), (e): a single bit leaves `0x07`, which comes back after every 127 zero bits -/

/-- One marked position, with `l` and then `m` positions after it. -/
theorem crcBits_mark {p l m n : Nat} (hn : p + 1 + (m + l) = n) :
    crcBits (fun k => k == p) n = zeroBit^[m] (zeroBit^[l] 0x07#8) := by
  have hoff (k : Nat) (hk : k ≠ p) : (k == p) = false := beq_false_of_ne hk
  have hbefore : crcBits (fun k => k == p) p = 0x00#8 := crcBits_of_zeros fun k hk => hoff k (by omega)
  have hbit : crcBit 0x00#8 true = 0x07#8 := by decide
  rw [← hn, crcBits_add_of_zeros fun k hk _ => hoff k (by omega), crcBits_succ, hbefore, beq_self_eq_true, hbit,
    Function.iterate_add_apply]

/-- One more marked position adds what it leaves alone. -/
theorem crcBits_or_mark {P : Nat → Bool} {q : Nat} (hq : P q = false) (n : Nat) :
    crcBits (fun k => P k || k == q) n = crcBits P n ^^^ crcBits (fun k => k == q) n := by
  rw [← crcBits_xor]
  refine crcBits_congr fun k _ => ?_
  rcases eq_or_ne k q with rfl | hne
  · rw [hq, Bool.false_or, Bool.false_xor]
  · rw [beq_false_of_ne hne, Bool.or_false, Bool.xor_false]

/-- `0x07` returns after 127 zero bits and, 127 being prime and `0x07` not fixed, not before. -/
theorem minimalPeriod_zeroBit : Function.minimalPeriod zeroBit 0x07#8 = 127 := by
  have hprime : Fact (Nat.Prime 127) := ⟨by norm_num⟩
  refine Function.minimalPeriod_eq_prime ?_ ?_
  · show zeroBit^[127] 0x07#8 = 0x07#8
    decide +kernel
  · show zeroBit 0x07#8 ≠ 0x07#8
    decide

theorem zeroBit_iterate_eq_iff (d : Nat) : zeroBit^[d] 0x07#8 = 0x07#8 ↔ d % 127 = 0 := by
  rw [← Nat.dvd_iff_mod_eq_zero, ← minimalPeriod_zeroBit]
  exact Function.isPeriodicPt_iff_minimalPeriod_dvd

theorem crcBits_two_eq_zero_iff {p q n : Nat} (hpq : p < q) (hqn : q < n) :
    crcBits (fun k => k == p || k == q) n = 0x00#8 ↔ (q - p) % 127 = 0 := by
  have hne : (q == p) = false := beq_false_of_ne (by omega)
  rw [crcBits_or_mark (P := fun k => k == p) hne, BitVec.xor_eq_zero_iff,
    crcBits_mark (l := q - p) (m := n - 1 - q) (by omega), crcBits_mark (l := 0) (m := n - 1 - q) (by omega),
    (zeroBit_injective.iterate _).eq_iff]
  exact zeroBit_iterate_eq_iff (q - p)

/-- The four marked positions are the terms of the generator. -/
theorem crcBits_four {p n : Nat} (hn : p + 8 < n) :
    crcBits (fun k => k == p || k == p + 6 || k == p + 7 || k == p + 8) n = 0x00#8 := by
  have hgen : zeroBit^[8] 0x07#8 ^^^ zeroBit^[2] 0x07#8 ^^^ zeroBit^[1] 0x07#8 ^^^ zeroBit^[0] 0x07#8 = 0x00#8 := by
    decide
  have hmark {j : Nat} (l : Nat) (hj : j + l = p + 8) :
      crcBits (fun k => k == j) n = zeroBit^[n - 1 - (p + 8)] (zeroBit^[l] 0x07#8) :=
    crcBits_mark (by omega)
  rw [crcBits_or_mark (by simp), crcBits_or_mark (by simp), crcBits_or_mark (by simp), hmark 8 rfl, hmark 2 rfl,
    hmark 1 rfl, hmark 0 rfl, ← zeroBit_iterate_xor, ← zeroBit_iterate_xor, ← zeroBit_iterate_xor, hgen,
    zeroBit_iterate_eq_zero_iff]

/-- Settles O22: the register after the two marks and after the four. -/
theorem twoBitsPassOnlyAMultipleOf127Apart : Obligations.TwoBitsPassOnlyAMultipleOf127Apart := by
  refine ⟨fun f r p q hf hpq hq => ?_, fun f r p hf hp => ?_⟩
  · rw [accepted_iff_of_flips (flips_differAt f _) hf, crcBits_two_eq_zero_iff hpq hq]
  · exact (accepted_iff_of_flips (flips_differAt f _) hf).2 (crcBits_four hp)

end Sys2Proof.Machine
end

section
/-! PROOFS, 30_encoding.md section 3: what the moves of the pseudo-instructions (R61) do, and so that CHECKSUM and
STREAM compute `crc8` (40_checksum.md section 3), ENC and DEC the functions of 41_frame_codec.md section 1, and DECODE
after ENCODE and LOOPBACK gives back what was encoded; 60_exceptions.md section 1 for a host that only sums. -/

open Sys2Proof.Claims

namespace Sys2Proof.Machine

/-! ### LOAD, and an operation with the read that follows it -/

/-- The state that `LOAD` leaves. -/
def State.load (bs : List Byte) (s : State) : State :=
  { s with inBuf := s.inBuf.writeSeq 0 bs, inLen := BitVec.ofNat 8 bs.length }

theorem runMoves_loadCells (bs : List Byte) (i : Nat) (s : State) (hbs : i + bs.length ≤ 256) :
    runMoves (loadCells i bs) s = .next { s with inBuf := s.inBuf.writeSeq i bs } := by
  induction bs generalizing i s with
  | nil => rfl
  | cons b bs ih =>
    rw [List.length_cons] at hbs
    have hindex : (BitVec.ofNat 8 i).toNat = i := by
      rw [BitVec.toNat_ofNat]
      exact Nat.mod_eq_of_lt (by omega)
    have hfirst : doMove (.hwrin (BitVec.ofNat 8 i) b) s = .next (s.writeIn i b) := by rw [doMove, hindex]
    rw [loadCells, runMoves_cons_of_next hfirst, ih (i + 1) _ (by omega)]
    rfl

theorem load_eq_some_iff {bs : List Byte} {ms : List HostMove} :
    load bs = some ms ↔ bs.length ≤ 255 ∧
      ms = loadCells 0 bs ++ [.hwr RegName.inLen.number (BitVec.ofNat 8 bs.length)] := by
  rw [load, Option.ite_none_right_eq_some, Option.some.injEq, eq_comm (b := ms), Config.maxSeqLen]

theorem exists_load_iff (bs : List Byte) : (∃ ms, load bs = some ms) ↔ bs.length ≤ 255 := by
  simp only [load_eq_some_iff, exists_and_left, exists_eq, and_true]

theorem runMoves_load {bs : List Byte} {ms : List HostMove} (h : load bs = some ms) (s : State) :
    runMoves ms s = .next (s.load bs) := by
  obtain ⟨hlen, rfl⟩ := load_eq_some_iff.1 h
  rw [runMoves_append_of_next (runMoves_loadCells bs 0 s (by omega))]
  rfl

theorem State.load_operandSeq {bs : List Byte} (hbs : bs.length ≤ 255) (s : State) :
    (s.load bs).operandSeq = bs := by
  have hlen : (s.load bs).inLen.toNat = bs.length := by
    rw [State.load, BitVec.toNat_ofNat]
    exact Nat.mod_eq_of_lt (by omega)
  apply List.ext_getElem
  · rw [State.operandSeq_length, hlen]
  · intro i _ hi
    rw [State.operandSeq_getElem, State.readIn, State.load, Memory.lookup_writeSeq]
    simp [hi]

/-- An operation, and then the host's read of a register. -/
theorem runMoves_exec_read {ms : List HostMove} {s u t : State} {i : Instr} (r : RegName)
    (hrun : runMoves ms s = .next u) (hexec : exec i u = .next t) :
    runMoves (ms ++ [.hcmd (encode i), .hrd r.number]) s = .next (t.observe (t.readReg r)) := by
  rw [runMoves_append_of_next hrun, runMoves_cons_of_next ((doMove_hcmd_encode i u).trans hexec),
    ← t.readPort_number r]
  rfl

/-! ### CHECKSUM and STREAM (40_checksum.md section 3) -/

theorem runMoves_checksumMoves {bs : List Byte} {ms : List HostMove} (h : checksumMoves bs = some ms) (s : State) :
    runMoves ms s =
      .next (State.observe (crc8 bs) { s.load bs with crc := crc8 bs, status := 0x00#8 }) := by
  obtain ⟨l, hload, rfl⟩ := Option.map_eq_some_iff.1 h
  obtain ⟨hlen, -⟩ := load_eq_some_iff.1 hload
  have hsum := exec_cksum (s.load bs)
  rw [State.load_operandSeq hlen] at hsum
  exact runMoves_exec_read .crc (runMoves_load hload s) hsum

theorem runMoves_streamMoves (bs : List Byte) (s : State) :
    runMoves (streamMoves bs) s = .next (State.observe (crc8 bs) { s with crc := crc8 bs, status := 0x00#8 }) := by
  rw [streamMoves, ← clearThenAbsorb_eq, runMoves_append_of_next (runMoves_clearThenAbsorb bs s)]
  rfl

/-- Settles O26: both runs as equations, and the length that `LOAD` takes. -/
theorem streamingAndCksumAgree : Obligations.StreamingAndCksumAgree := by
  refine ⟨fun bs ms s h => ⟨_, runMoves_checksumMoves h s, rfl, rfl, rfl⟩,
    fun bs s => ⟨_, runMoves_streamMoves bs s, rfl, rfl, rfl⟩, fun bs => ?length⟩
  case length =>
    rw [← exists_load_iff]
    simp only [checksumMoves, Option.map_eq_some_iff, exists_comm, exists_and_left, exists_eq', and_true]

/-! ### ENC and DEC: the operations meet the functions (41_frame_codec.md) -/

theorem State.resultSeq_of_outLen_zero {s : State} (h : s.outLen = 0x00#8) : s.resultSeq = [] := by
  rw [State.resultSeq, h]
  rfl

theorem State.resultSeq_eq_map {s : State} {n : Nat} (h : s.outLen.toNat = n) :
    s.resultSeq = (List.range n).map s.readOut := by
  rw [State.resultSeq, State.outSeq_zero, h]

theorem State.encoded_resultSeq {s : State} (hlen : s.inLen.toNat ≤ 16) :
    s.encoded.resultSeq = frameBytes s.dev s.cmd s.operandSeq := by
  rw [State.resultSeq_eq_map (n := 20) (by rw [s.encoded_outLen]; rfl), State.map_readOut_encoded hlen le_rfl,
    List.take_of_length_le (frameBytes_length _ _ (State.operandSeq_fits hlen)).le]

theorem State.decoded_resultSeq (s : State) : s.decoded.resultSeq = payloadBytes s.operandSeq := by
  rw [State.resultSeq_eq_map s.decoded_outLen_toNat, s.map_readOut_decoded]

/-- ENCODE reports what `frame_of` is of `DEV`, `CMD` and the operand sequence. -/
theorem exec_encode_meets_frameOf (s : State) : ∃ t, exec .encode s = .next t ∧
    ((∃ f, frameOf s.dev s.cmd s.operandSeq = .ok f ∧ t.status = 0x00#8 ∧ t.resultSeq = f) ∨
      ∃ e, frameOf s.dev s.cmd s.operandSeq = .error e ∧ t.status = statusWord e ∧ t.resultSeq = []) := by
  rcases Nat.lt_or_ge 16 s.inLen.toNat with hlong | hfits
  · exact ⟨_, exec_encode_of_long hlong, .inr ⟨_, frameOf_of_long _ _ (by rwa [State.operandSeq_length]), rfl,
      State.resultSeq_of_outLen_zero rfl⟩⟩
  · exact ⟨_, exec_encode_of_fits hfits, .inl ⟨_, frameOf_of_fits _ _ (State.operandSeq_fits hfits),
      s.encoded_status, State.encoded_resultSeq hfits⟩⟩

/-- The two tests of DECODE are those of `parse`. -/
theorem State.checksum_operandSeq_iff {s : State} (hlen : 4 ≤ s.inLen.toNat) :
    crc8 (s.operandSeq.take (s.operandSeq.length - 1)) = byteAt s.operandSeq (s.operandSeq.length - 1) ↔
      crc8 (s.inSeq 0 (s.inLen.toNat - 1)) = s.readIn (s.inLen.toNat - 1) := by
  rw [State.operandSeq_length, s.operandSeq_take (by omega), s.byteAt_operandSeq (by omega), ← State.inSeq_zero]

/-- DECODE reports what `parse` is of the operand sequence. -/
theorem exec_decode_meets_parse (s : State) : ∃ t, exec .decode s = .next t ∧
    ((∃ p, parse s.operandSeq = .ok ⟨t.rdev, t.rcmd, t.rrsv, p⟩ ∧ t.status = 0x00#8 ∧ t.resultSeq = p) ∨
      ∃ e, parse s.operandSeq = .error e ∧ t.status = statusWord e ∧ t.resultSeq = []) := by
  rcases Nat.lt_or_ge s.inLen.toNat 4 with hshort | hlen
  · exact ⟨_, exec_decode_of_short hshort, .inr ⟨_, parse_of_short (by rwa [State.operandSeq_length]), rfl,
      State.resultSeq_of_outLen_zero rfl⟩⟩
  · by_cases hsum : crc8 (s.inSeq 0 (s.inLen.toNat - 1)) = s.readIn (s.inLen.toNat - 1)
    · exact ⟨_, exec_decode_of_match hlen hsum, .inl ⟨_, State.parse_operandSeq_of_match hlen hsum,
        s.decoded_status, s.decoded_resultSeq⟩⟩
    · have htest := mt (State.checksum_operandSeq_iff hlen).1 hsum
      exact ⟨_, exec_decode_of_mismatch hlen hsum, .inr ⟨_,
        parse_of_mismatch (by rwa [State.operandSeq_length]) htest, rfl, State.resultSeq_of_outLen_zero rfl⟩⟩

/-- After an operation the host reads the whole of `STATUS`. -/
theorem readReg_status_of_exec {i : Instr} {s t : State} (h : exec i s = .next t) :
    t.readReg .status = t.status := by
  rw [State.readReg, exec_status h, readStatus_statusWord]

theorem runMoves_encMoves {d c : Byte} {p : List Byte} {ms : List HostMove} (h : encMoves d c p = some ms)
    {s t : State} (hexec : exec .encode (((s.setDev d).setCmd c).load p) = .next t) :
    runMoves ms s = .next (t.observe t.status) := by
  obtain ⟨l, hload, rfl⟩ := Option.map_eq_some_iff.1 h
  have hrun : runMoves ([.hwr RegName.dev.number d, .hwr RegName.cmd.number c] ++ l) s =
      .next (((s.setDev d).setCmd c).load p) := runMoves_load hload _
  rw [runMoves_exec_read .status hrun hexec, readReg_status_of_exec hexec]

theorem runMoves_decMoves {bs : List Byte} {ms : List HostMove} (h : decMoves bs = some ms) {s t : State}
    (hexec : exec .decode (s.load bs) = .next t) : runMoves ms s = .next (t.observe t.status) := by
  obtain ⟨l, hload, rfl⟩ := Option.map_eq_some_iff.1 h
  rw [runMoves_exec_read .status (runMoves_load hload s) hexec, readReg_status_of_exec hexec]

/-- Settles O35: the operations meet the functions on the operand that `LOAD` leaves. -/
theorem encAndDecMeetTheFunctions : Obligations.EncAndDecMeetTheFunctions := by
  refine ⟨fun d c p ms s h => ?enc, fun f ms s h => ?dec, fun d c bs hbs => ?written⟩
  case enc =>
    obtain ⟨l, hload, -⟩ := Option.map_eq_some_iff.1 h
    obtain ⟨hlen, -⟩ := load_eq_some_iff.1 hload
    obtain ⟨t, hexec, hmeets⟩ := exec_encode_meets_frameOf (((s.setDev d).setCmd c).load p)
    obtain ⟨-, -, -, hobserved⟩ := (opEffect_of_exec hexec).keeps
    rw [State.load_operandSeq hlen] at hmeets
    exact ⟨t.observe t.status, runMoves_encMoves h hexec, congrArg (· ++ [t.status]) hobserved, hmeets⟩
  case dec =>
    obtain ⟨l, hload, -⟩ := Option.map_eq_some_iff.1 h
    obtain ⟨hlen, -⟩ := load_eq_some_iff.1 hload
    obtain ⟨t, hexec, hmeets⟩ := exec_decode_meets_parse (s.load f)
    obtain ⟨-, -, -, hobserved⟩ := (opEffect_of_exec hexec).keeps
    rw [State.load_operandSeq hlen] at hmeets
    exact ⟨t.observe t.status, runMoves_decMoves h hexec, congrArg (· ++ [t.status]) hobserved, hmeets⟩
  case written =>
    obtain ⟨l, hl⟩ := (exists_load_iff bs).2 hbs
    exact ⟨⟨_, congrArg (Option.map _) hl⟩, _, congrArg (Option.map _) hl⟩

/-! ### LOOPBACK and the round trip of the operations (41_frame_codec.md section 2) -/

theorem runMoves_loopbackCells (s : State) {n : Nat} (hn : n ≤ 256) :
    ∃ u, runMoves ((List.range n).flatMap (loopbackCells s)) s = .next u ∧
      (∀ j < n, u.readIn j = s.readOut j) ∧ ∀ j, u.readOut j = s.readOut j := by
  induction n with
  | zero => exact ⟨s, rfl, fun j hj => absurd hj (Nat.not_lt_zero j), fun j => rfl⟩
  | succ n ih =>
    obtain ⟨u, hrun, hin, hout⟩ := ih (by omega)
    have hindex : (BitVec.ofNat 8 n).toNat = n := by
      rw [BitVec.toNat_ofNat]
      exact Nat.mod_eq_of_lt (by omega)
    refine ⟨(u.observe (u.readOut n)).writeIn n (s.readOut n), ?run, fun j hj => ?copied, hout⟩
    case run =>
      rw [List.range_succ, List.flatMap_append, runMoves_append_of_next hrun, List.flatMap_singleton, loopbackCells]
      simp only [runMoves, doMove, hindex]
    case copied =>
      rw [State.writeIn_readIn]
      split_ifs with hjn
      · rw [hjn]
      · exact hin j (by omega)

/-- `LOOPBACK` makes the result sequence the operand sequence and leaves `OUT` as it was. -/
theorem runMoves_loopbackMoves (s : State) :
    ∃ u, runMoves (loopbackMoves s) s = .next u ∧ u.operandSeq = s.resultSeq ∧ u.inLen = s.outLen ∧
      ∀ j, u.readOut j = s.readOut j := by
  obtain ⟨u, hrun, hin, hout⟩ := runMoves_loopbackCells s s.outLen.isLt.le
  refine ⟨u.setInLen s.outLen, (runMoves_append_of_next hrun).trans rfl, ?_, rfl, hout⟩
  rw [State.operandSeq_eq_map, State.resultSeq_eq_map rfl]
  exact List.map_congr_left fun j hj => hin j (List.mem_range.1 hj)

/-- DECODE completes on an operand sequence that `parse` accepts. -/
theorem exec_decode_of_parse {s : State} {r : Parsed} (h : parse s.operandSeq = .ok r) :
    exec .decode s = .next s.decoded := by
  obtain ⟨hlen, hsum, -⟩ := parse_eq_ok_iff.1 h
  rw [State.operandSeq_length] at hlen
  exact exec_decode_of_match hlen ((State.checksum_operandSeq_iff hlen).1 hsum)

/-- Settles O34: LOOPBACK makes the frame of ENCODE the operand, and `parse` accepts a frame. -/
theorem decodeAfterEncodeGivesItBack : Obligations.DecodeAfterEncodeGivesItBack := by
  intro s hlen
  have hfits := State.operandSeq_fits hlen
  obtain ⟨u, hrun, hop, hinLen, hout⟩ := runMoves_loopbackMoves s.encoded
  rw [State.encoded_resultSeq hlen] at hop
  have h20 : u.inLen.toNat = 20 := by rw [hinLen, s.encoded_outLen]; rfl
  have hparse : parse u.operandSeq = .ok ⟨s.dev, s.cmd, 0x00#8, pad16 s.operandSeq⟩ := by
    rw [hop, parse_frameBytes _ _ hfits]
  have hcell {i : Nat} (hi : i < 20) : u.readIn i = byteAt (frameBytes s.dev s.cmd s.operandSeq) i := by
    rw [← u.byteAt_operandSeq (by omega), hop]
  have hresult {i : Nat} (hi : i < 16) :
      u.decoded.readOut i = byteAt (frameBytes s.dev s.cmd s.operandSeq) (3 + i) := by
    rw [State.decoded_readOut_of_lt (by omega), hcell (by omega)]
  refine ⟨s.encoded, u, u.decoded, exec_encode_of_fits hlen, hrun, exec_decode_of_parse hparse, u.decoded_status,
    hcell (by decide), hcell (by decide), hcell (by decide), ?outLen, fun i hi => ?payload, fun i hi hi16 => ?padding,
    fun i hi => ?above⟩
  case outLen => rw [u.decoded_outLen, h20]
  case payload =>
    rw [hresult (by omega), byteAt_frameBytes_payload _ _ hfits (by omega), s.byteAt_operandSeq hi]
  case padding => rw [hresult hi16, byteAt_frameBytes_padding _ _ hfits (State.operandSeq_fits hi) hi16]
  case above => rw [State.decoded_readOut_of_le (by omega), hout]

/-! ### A host that only sums (60_exceptions.md section 1) -/

theorem succeeded_of_status {t : State} (h : t.status = 0x00#8) : t.succeeded := by
  rw [State.succeeded, h]
  decide

theorem doMove_hcmd_succeeded {i : Instr} {s t : State} (h : doMove (.hcmd (encode i)) s = .next t)
    (hencode : i ≠ .encode) (hdecode : i ≠ .decode) : t.succeeded := by
  cases opEffect_of_exec ((doMove_hcmd_encode i s).symm.trans h) with
  | summed c => exact succeeded_of_status rfl
  | raised e c hi => exact (hi.elim hencode hdecode).elim
  | encoded => exact absurd rfl hencode
  | decoded => exact absurd rfl hdecode

/-- A move of the block's port, or the command word of a sum, leaves no error where none was. -/
theorem doMove_succeeded {m : HostMove} {s t : State} (h : doMove m s = .next t) (hs : s.succeeded)
    (hm : ∀ w, m = .hcmd w → ∃ i, w = encode i ∧ i ≠ .encode ∧ i ≠ .decode) : t.succeeded := by
  by_cases hreset : m = .hreset
  · subst hreset
    exact eq_of_next h rfl ▸ succeeded_of_status rfl
  · obtain ⟨-, -, -, -, -, -, -, -, hstatus⟩ := writersOnly_of_doMove h hreset
    by_cases hsame : t.status = s.status
    · rwa [State.succeeded, hsame]
    · obtain ⟨w, rfl⟩ := hstatus hsame
      obtain ⟨i, rfl, hencode, hdecode⟩ := hm w rfl
      exact doMove_hcmd_succeeded h hencode hdecode

theorem cleanRun_of_sums {ms : List HostMove} {s : State} (hs : s.succeeded)
    (hms : ∀ w, HostMove.hcmd w ∈ ms → ∃ i, w = encode i ∧ i ≠ .encode ∧ i ≠ .decode) : cleanRun ms s := by
  induction ms generalizing s with
  | nil => trivial
  | cons m ms ih =>
    obtain ⟨t, hmove⟩ := exists_doMove m s
    have ht := doMove_succeeded hmove hs fun w hw => hms w (hw ▸ List.mem_cons_self)
    exact ⟨t, hmove, ht, ih ht fun w hw => hms w (List.mem_cons_of_mem m hw)⟩

/-- Settles O40: the three kinds of word encode the three operations that only sum. -/
theorem checksumHostNeverSeesAnError : Obligations.ChecksumHostNeverSeesAnError := by
  intro ms s hs hms
  refine cleanRun_of_sums hs fun w hw => ?_
  obtain rfl | ⟨v, rfl⟩ | rfl := hms w hw
  · exact ⟨.crcClr, rfl, by decide, by decide⟩
  · exact ⟨.crcUpd v, (encode_crcUpd v).symm, by simp, by simp⟩
  · exact ⟨.cksum, rfl, by decide, by decide⟩

end Sys2Proof.Machine
end
